-- ==== Sys2Proof/Word.lean ====
section
/-! DEFINITION. The plain types the model is written with: command words, flag fields, register indices. -/

namespace Sys2Proof

/-- A command word, and every control and status register as the host reads it (R28, R70). -/
abbrev Word := BitVec 32

/-- The flag field of a big register: bit 0 OVERFLOW, 1 UNDERFLOW, 2 INFINITY, 3 DIVIDED_BY_ZERO (R22). -/
abbrev FlagField := BitVec 4

/-- The index of a big register V0..V15 (R20, R71). -/
abbrev VReg := Fin 16

/-- The index of a scalar register S0..S15 (R25, R71). -/
abbrev SReg := Fin 16

/-- The one immediate of a command word, bits 8:5 (R75). -/
abbrev Imm4 := BitVec 4

end Sys2Proof
end

