-- ==== Sys2Proof/Syntax.lean ====
section
/-! DEFINITION. The commands: one constructor per row of spec/opcode_table.json (R74), its operands in assembly order
(R91): destinations first, then sources, then the immediate. A name that ends in `U` is the single-word form (U = 1,
R73), whose last source `rs2` is a scalar register. -/

namespace Sys2Proof

/-- A command of the engine (R74). -/
inductive Instr where
  -- Constructors and the move (40_construct.md)
  | vzero (rd : VReg) -- VZERO, R101
  | vone (rd : VReg) -- VONE, R102
  | vmax (rd : VReg) -- VMAX, R103
  | vfromu (rd : VReg) (rs2 : SReg) -- VFROMU, R104
  | vmov (rd rs1 : VReg) -- VMOV, R105
  -- Addition and subtraction (41_addsub.md)
  | addWrap (rd rs1 rs2 : VReg) -- ADD.WRAP, R121
  | addWrapU (rd rs1 : VReg) (rs2 : SReg) -- ADD.WRAP.U, R121
  | addOvf (rd rs1 rs2 : VReg) -- ADD.OVF, R122
  | addOvfU (rd rs1 : VReg) (rs2 : SReg) -- ADD.OVF.U, R122
  | addChk (rd rs1 rs2 : VReg) -- ADD.CHK, R123
  | addChkU (rd rs1 : VReg) (rs2 : SReg) -- ADD.CHK.U, R123
  | addUnchk (rd rs1 rs2 : VReg) -- ADD.UNCHK, R124
  | addUnchkU (rd rs1 : VReg) (rs2 : SReg) -- ADD.UNCHK.U, R124
  | addSat (rd rs1 rs2 : VReg) -- ADD.SAT, R125
  | addSatU (rd rs1 : VReg) (rs2 : SReg) -- ADD.SAT.U, R125
  | addCarry (rd rs1 rs2 : VReg) -- ADD.CARRY, R126
  | addCarryU (rd rs1 : VReg) (rs2 : SReg) -- ADD.CARRY.U, R126
  | subWrap (rd rs1 rs2 : VReg) -- SUB.WRAP, R127
  | subWrapU (rd rs1 : VReg) (rs2 : SReg) -- SUB.WRAP.U, R127
  | subOvf (rd rs1 rs2 : VReg) -- SUB.OVF, R128
  | subOvfU (rd rs1 : VReg) (rs2 : SReg) -- SUB.OVF.U, R128
  | subChk (rd rs1 rs2 : VReg) -- SUB.CHK, R129
  | subChkU (rd rs1 : VReg) (rs2 : SReg) -- SUB.CHK.U, R129
  | subUnchk (rd rs1 rs2 : VReg) -- SUB.UNCHK, R130
  | subUnchkU (rd rs1 : VReg) (rs2 : SReg) -- SUB.UNCHK.U, R130
  | subSat (rd rs1 rs2 : VReg) -- SUB.SAT, R131
  | subSatU (rd rs1 : VReg) (rs2 : SReg) -- SUB.SAT.U, R131
  | subCarry (rd rs1 rs2 : VReg) -- SUB.CARRY, R132
  | subCarryU (rd rs1 : VReg) (rs2 : SReg) -- SUB.CARRY.U, R132
  -- Multiplication (42_multiply.md)
  | mulWrap (rd rs1 rs2 : VReg) -- MUL.WRAP, R143
  | mulWrapU (rd rs1 : VReg) (rs2 : SReg) -- MUL.WRAP.U, R143
  | mulOvf (rd rs1 rs2 : VReg) -- MUL.OVF, R144
  | mulOvfU (rd rs1 : VReg) (rs2 : SReg) -- MUL.OVF.U, R144
  | mulChk (rd rs1 rs2 : VReg) -- MUL.CHK, R145
  | mulChkU (rd rs1 : VReg) (rs2 : SReg) -- MUL.CHK.U, R145
  | mulUnchk (rd rs1 rs2 : VReg) -- MUL.UNCHK, R146
  | mulUnchkU (rd rs1 : VReg) (rs2 : SReg) -- MUL.UNCHK.U, R146
  | mulSat (rd rs1 rs2 : VReg) -- MUL.SAT, R147
  | mulSatU (rd rs1 : VReg) (rs2 : SReg) -- MUL.SAT.U, R147
  | mulWide (rd rd2 rs1 rs2 : VReg) -- MUL.WIDE, R148
  | mulWideU (rd rd2 rs1 : VReg) (rs2 : SReg) -- MUL.WIDE.U, R148
  | mulCarry (rd rd2 rs1 rs2 rs3 : VReg) -- MUL.CARRY, R149
  | mulCarryU (rd rd2 rs1 : VReg) (rs2 : SReg) (rs3 : VReg) -- MUL.CARRY.U, R149
  -- Division and remainder (43_divide.md)
  | divfull (rd rd2 rs1 rs2 : VReg) -- DIVFULL, R162
  | divfullU (rd rd2 rs1 : VReg) (rs2 : SReg) -- DIVFULL.U, R162
  | divWrap (rd rs1 rs2 : VReg) -- DIV.WRAP, R163
  | divWrapU (rd rs1 : VReg) (rs2 : SReg) -- DIV.WRAP.U, R163
  | divOvf (rd rs1 rs2 : VReg) -- DIV.OVF, R164
  | divOvfU (rd rs1 : VReg) (rs2 : SReg) -- DIV.OVF.U, R164
  | divChk (rd rs1 rs2 : VReg) -- DIV.CHK, R165
  | divChkU (rd rs1 : VReg) (rs2 : SReg) -- DIV.CHK.U, R165
  | divUnchk (rd rs1 rs2 : VReg) -- DIV.UNCHK, R166
  | divUnchkU (rd rs1 : VReg) (rs2 : SReg) -- DIV.UNCHK.U, R166
  | divSat (rd rs1 rs2 : VReg) -- DIV.SAT, R167
  | divSatU (rd rs1 : VReg) (rs2 : SReg) -- DIV.SAT.U, R167
  | remWrap (rd rs1 rs2 : VReg) -- REM.WRAP, R168
  | remWrapU (rd rs1 : VReg) (rs2 : SReg) -- REM.WRAP.U, R168
  | remOvf (rd rs1 rs2 : VReg) -- REM.OVF, R169
  | remOvfU (rd rs1 : VReg) (rs2 : SReg) -- REM.OVF.U, R169
  | remChk (rd rs1 rs2 : VReg) -- REM.CHK, R170
  | remChkU (rd rs1 : VReg) (rs2 : SReg) -- REM.CHK.U, R170
  | remUnchk (rd rs1 rs2 : VReg) -- REM.UNCHK, R171
  | remUnchkU (rd rs1 : VReg) (rs2 : SReg) -- REM.UNCHK.U, R171
  | remSat (rd rs1 rs2 : VReg) -- REM.SAT, R172
  | remSatU (rd rs1 : VReg) (rs2 : SReg) -- REM.SAT.U, R172
  -- Modular commands and GCD (44_modular.md)
  | madd (rd rs1 rs2 rs3 : VReg) -- MADD, R181
  | msub (rd rs1 rs2 rs3 : VReg) -- MSUB, R182
  | mmul (rd rs1 rs2 rs3 : VReg) -- MMUL, R183
  | mdiv (rd rs1 rs2 rs3 : VReg) -- MDIV, R184
  | mrem (rd rs1 rs2 rs3 : VReg) -- MREM, R185
  | mpow (rd rs1 rs2 rs3 : VReg) -- MPOW, R186
  | gcd (rd rs1 rs2 : VReg) -- GCD, R187
  -- Powers and roots (45_pow_root.md)
  | powWrap (rd rs1 rs2 : VReg) -- POW.WRAP, R202
  | powWrapU (rd rs1 : VReg) (rs2 : SReg) -- POW.WRAP.U, R202
  | powOvf (rd rs1 rs2 : VReg) -- POW.OVF, R203
  | powOvfU (rd rs1 : VReg) (rs2 : SReg) -- POW.OVF.U, R203
  | powChk (rd rs1 rs2 : VReg) -- POW.CHK, R204
  | powChkU (rd rs1 : VReg) (rs2 : SReg) -- POW.CHK.U, R204
  | powUnchk (rd rs1 rs2 : VReg) -- POW.UNCHK, R205
  | powUnchkU (rd rs1 : VReg) (rs2 : SReg) -- POW.UNCHK.U, R205
  | powSat (rd rs1 rs2 : VReg) -- POW.SAT, R206
  | powSatU (rd rs1 : VReg) (rs2 : SReg) -- POW.SAT.U, R206
  | root (rd rs1 rs2 : VReg) -- ROOT, R207
  | rootU (rd rs1 : VReg) (rs2 : SReg) -- ROOT.U, R207
  | sqrt (rd rs1 : VReg) -- SQRT, R209
  -- Primality (46_primality.md)
  | isprime (rs1 : VReg) (rs2 : SReg) -- ISPRIME, R222
  -- Logic, shifts, rotates and byte order (47_bitbyte.md)
  | bitAnd (rd rs1 rs2 : VReg) -- AND, R241
  | bitOr (rd rs1 rs2 : VReg) -- OR, R242
  | bitXor (rd rs1 rs2 : VReg) -- XOR, R243
  | bitNot (rd rs1 : VReg) -- NOT, R244
  | shl (rd rs1 : VReg) (rs2 : SReg) -- SHL, R250
  | shr (rd rs1 : VReg) (rs2 : SReg) -- SHR, R251
  | rotl (rd rs1 : VReg) (rs2 : SReg) -- ROTL, R252
  | rotr (rd rs1 : VReg) (rs2 : SReg) -- ROTR, R253
  | revbits (rd rs1 : VReg) -- REVBITS, R260
  | bswap (rd rs1 : VReg) -- BSWAP, R261
  | tobe (rd rs1 : VReg) -- TOBE, R262
  | tole (rd rs1 : VReg) -- TOLE, R263
  -- Counts (48_count.md)
  | popcnt (rd : SReg) (rs1 : VReg) -- POPCNT, R271
  | clz (rd : SReg) (rs1 : VReg) -- CLZ, R272
  | ctz (rd : SReg) (rs1 : VReg) -- CTZ, R273
  | clzw (rd : SReg) (rs1 : VReg) -- CLZW, R274
  | ctzw (rd : SReg) (rs1 : VReg) -- CTZW, R275
  -- Flag and COND access (49_flags.md)
  | fget (rd : SReg) (rs1 : VReg) -- FGET, R291
  | fset (rd : VReg) (imm : Imm4) -- FSET, R293
  | fclr (rd : VReg) (imm : Imm4) -- FCLR, R292
  | ftest (rs1 : VReg) (imm : Imm4) -- FTEST, R294
  | condw (imm : Imm4) -- CONDW, R295
deriving DecidableEq, Repr

end Sys2Proof
end

