-- ==== Sys2Proof/WellFormed.lean ====
section
/-! DEFINITION. Which commands the encoding admits: the two-destination forms name two different registers (R77), and
CONDW uses only the two low bits of its immediate (R75, R76). Every other operand is legal at every value (R71). -/

namespace Sys2Proof

/-- The command is one the decoder can answer (R76, R77). -/
def Instr.wellFormed : Instr → Bool
  | .mulWide rd rd2 _ _ => rd != rd2
  | .mulWideU rd rd2 _ _ => rd != rd2
  | .mulCarry rd rd2 _ _ _ => rd != rd2
  | .mulCarryU rd rd2 _ _ _ => rd != rd2
  | .divfull rd rd2 _ _ => rd != rd2
  | .divfullU rd rd2 _ _ => rd != rd2
  | .condw imm => imm.toNat < 4
  | .vzero _ | .vone _ | .vmax _ | .vfromu _ _ | .vmov _ _ | .addWrap _ _ _ | .addWrapU _ _ _ | .addOvf _ _ _
  | .addOvfU _ _ _ | .addChk _ _ _ | .addChkU _ _ _ | .addUnchk _ _ _ | .addUnchkU _ _ _ | .addSat _ _ _
  | .addSatU _ _ _ | .addCarry _ _ _ | .addCarryU _ _ _ | .subWrap _ _ _ | .subWrapU _ _ _ | .subOvf _ _ _
  | .subOvfU _ _ _ | .subChk _ _ _ | .subChkU _ _ _ | .subUnchk _ _ _ | .subUnchkU _ _ _ | .subSat _ _ _
  | .subSatU _ _ _ | .subCarry _ _ _ | .subCarryU _ _ _ | .mulWrap _ _ _ | .mulWrapU _ _ _ | .mulOvf _ _ _
  | .mulOvfU _ _ _ | .mulChk _ _ _ | .mulChkU _ _ _ | .mulUnchk _ _ _ | .mulUnchkU _ _ _ | .mulSat _ _ _
  | .mulSatU _ _ _ | .divWrap _ _ _ | .divWrapU _ _ _ | .divOvf _ _ _ | .divOvfU _ _ _ | .divChk _ _ _
  | .divChkU _ _ _ | .divUnchk _ _ _ | .divUnchkU _ _ _ | .divSat _ _ _ | .divSatU _ _ _ | .remWrap _ _ _
  | .remWrapU _ _ _ | .remOvf _ _ _ | .remOvfU _ _ _ | .remChk _ _ _ | .remChkU _ _ _ | .remUnchk _ _ _
  | .remUnchkU _ _ _ | .remSat _ _ _ | .remSatU _ _ _ | .madd _ _ _ _ | .msub _ _ _ _ | .mmul _ _ _ _
  | .mdiv _ _ _ _ | .mrem _ _ _ _ | .mpow _ _ _ _ | .gcd _ _ _ | .powWrap _ _ _ | .powWrapU _ _ _ | .powOvf _ _ _
  | .powOvfU _ _ _ | .powChk _ _ _ | .powChkU _ _ _ | .powUnchk _ _ _ | .powUnchkU _ _ _ | .powSat _ _ _
  | .powSatU _ _ _ | .root _ _ _ | .rootU _ _ _ | .sqrt _ _ | .isprime _ _ | .bitAnd _ _ _ | .bitOr _ _ _
  | .bitXor _ _ _ | .bitNot _ _ | .shl _ _ _ | .shr _ _ _ | .rotl _ _ _ | .rotr _ _ _ | .revbits _ _ | .bswap _ _
  | .tobe _ _ | .tole _ _ | .popcnt _ _ | .clz _ _ | .ctz _ _ | .clzw _ _ | .ctzw _ _ | .fget _ _ | .fset _ _
  | .fclr _ _ | .ftest _ _ => true

end Sys2Proof
end

