-- ==== Sys2Proof/Decode.lean ====
section
/-! DEFINITION. The command word: its fields (R70), the opcode map (R74), the decoder (R80), and after it the encoder
(R76). A word is delivered whole through CMD, so it has no byte order (R70). -/

namespace Sys2Proof

/-- The fields of a command word (R70). `rs3` is also the immediate IMM4, bits 8:5. -/
structure Fields where
  op : Fin 64
  var : Fin 8
  u : Bool
  res21 : Bool
  rd : Fin 16
  rs1 : Fin 16
  rs2 : Fin 16
  rs3 : Fin 16
  rd2 : Fin 16
  res0 : Bool
deriving DecidableEq, Repr

/-- Bit `n` of a command word. -/
def wordBit (c : Word) (n : Nat) : Bool := c.toNat / 2 ^ n % 2 == 1

/-- The 4-bit field whose lowest bit is bit `n` (R71). -/
def wordField4 (c : Word) (n : Nat) : Fin 16 := Fin.ofNat 16 (c.toNat / 2 ^ n)

/-- OP, bits 31:26 (R70). -/
def opcodeOf (c : Word) : Fin 64 := Fin.ofNat 64 (c.toNat / 2 ^ 26)

/-- VAR, bits 25:23 (R70). -/
def variantOf (c : Word) : Fin 8 := Fin.ofNat 8 (c.toNat / 2 ^ 23)

/-- All fields of a command word (R70). -/
def fieldsOf (c : Word) : Fields :=
  { op := opcodeOf c, var := variantOf c, u := wordBit c 22, res21 := wordBit c 21,
    rd := wordField4 c 17, rs1 := wordField4 c 13, rs2 := wordField4 c 9, rs3 := wordField4 c 5,
    rd2 := wordField4 c 1, res0 := wordBit c 0 }

/-- IMM4, the third source field read as an immediate (R75). -/
def Fields.imm (f : Fields) : Imm4 := BitVec.ofNat 4 f.rs3.val

/-- The operand formats of R74. -/
inductive Format where
  | z | r1 | r1s | r2 | r2s | r2d | r3d | r3 | cnt | prm | fim | fts | cim
deriving DecidableEq, Repr

/-- The column "fields that must be zero" of R74's format table; for CIM also IMM4[3:2] (R76). -/
def Format.unusedZero (t : Format) (f : Fields) : Bool :=
  match t with
  | .z => f.rs1 == 0 && f.rs2 == 0 && f.rs3 == 0 && f.rd2 == 0
  | .r1 => f.rs2 == 0 && f.rs3 == 0 && f.rd2 == 0
  | .r1s => f.rs1 == 0 && f.rs3 == 0 && f.rd2 == 0
  | .r2 => f.rs3 == 0 && f.rd2 == 0
  | .r2s => f.rs3 == 0 && f.rd2 == 0
  | .r2d => f.rs3 == 0
  | .r3d => true
  | .r3 => f.rd2 == 0
  | .cnt => f.rs2 == 0 && f.rs3 == 0 && f.rd2 == 0
  | .prm => f.rd == 0 && f.rs3 == 0 && f.rd2 == 0
  | .fim => f.rs1 == 0 && f.rs2 == 0 && f.rd2 == 0
  | .fts => f.rd == 0 && f.rs2 == 0 && f.rd2 == 0
  | .cim => f.rd == 0 && f.rs1 == 0 && f.rs2 == 0 && f.rd2 == 0 && decide (f.rs3.val < 4)

/-- The format has a second destination RD2, which must differ from RD (R77). -/
def Format.twoDest : Format → Bool
  | .r2d | .r3d => true
  | .z | .r1 | .r1s | .r2 | .r2s | .r3 | .cnt | .prm | .fim | .fts | .cim => false

/-- One command form of the opcode map R74: its OP, VAR and U, its format, and the command its fields name. -/
structure Row where
  op : Fin 64
  var : Fin 8
  u : Bool
  fmt : Format
  build : Fields → Instr

/-- The constructors and VMOV (R74). -/
def rowsConstruct : List Row :=
  [ ⟨0x01, 0, false, .z, fun f => .vzero f.rd⟩,
    ⟨0x02, 0, false, .z, fun f => .vone f.rd⟩,
    ⟨0x03, 0, false, .z, fun f => .vmax f.rd⟩,
    ⟨0x04, 0, false, .r1s, fun f => .vfromu f.rd f.rs2⟩,
    ⟨0x05, 0, false, .r1, fun f => .vmov f.rd f.rs1⟩ ]

/-- ADD and SUB (R74). -/
def rowsAddSub : List Row :=
  [ ⟨0x08, 0, false, .r2, fun f => .addWrap f.rd f.rs1 f.rs2⟩,
    ⟨0x08, 0, true, .r2, fun f => .addWrapU f.rd f.rs1 f.rs2⟩,
    ⟨0x08, 1, false, .r2, fun f => .addOvf f.rd f.rs1 f.rs2⟩,
    ⟨0x08, 1, true, .r2, fun f => .addOvfU f.rd f.rs1 f.rs2⟩,
    ⟨0x08, 2, false, .r2, fun f => .addChk f.rd f.rs1 f.rs2⟩,
    ⟨0x08, 2, true, .r2, fun f => .addChkU f.rd f.rs1 f.rs2⟩,
    ⟨0x08, 3, false, .r2, fun f => .addUnchk f.rd f.rs1 f.rs2⟩,
    ⟨0x08, 3, true, .r2, fun f => .addUnchkU f.rd f.rs1 f.rs2⟩,
    ⟨0x08, 4, false, .r2, fun f => .addSat f.rd f.rs1 f.rs2⟩,
    ⟨0x08, 4, true, .r2, fun f => .addSatU f.rd f.rs1 f.rs2⟩,
    ⟨0x08, 5, false, .r2, fun f => .addCarry f.rd f.rs1 f.rs2⟩,
    ⟨0x08, 5, true, .r2, fun f => .addCarryU f.rd f.rs1 f.rs2⟩,
    ⟨0x09, 0, false, .r2, fun f => .subWrap f.rd f.rs1 f.rs2⟩,
    ⟨0x09, 0, true, .r2, fun f => .subWrapU f.rd f.rs1 f.rs2⟩,
    ⟨0x09, 1, false, .r2, fun f => .subOvf f.rd f.rs1 f.rs2⟩,
    ⟨0x09, 1, true, .r2, fun f => .subOvfU f.rd f.rs1 f.rs2⟩,
    ⟨0x09, 2, false, .r2, fun f => .subChk f.rd f.rs1 f.rs2⟩,
    ⟨0x09, 2, true, .r2, fun f => .subChkU f.rd f.rs1 f.rs2⟩,
    ⟨0x09, 3, false, .r2, fun f => .subUnchk f.rd f.rs1 f.rs2⟩,
    ⟨0x09, 3, true, .r2, fun f => .subUnchkU f.rd f.rs1 f.rs2⟩,
    ⟨0x09, 4, false, .r2, fun f => .subSat f.rd f.rs1 f.rs2⟩,
    ⟨0x09, 4, true, .r2, fun f => .subSatU f.rd f.rs1 f.rs2⟩,
    ⟨0x09, 5, false, .r2, fun f => .subCarry f.rd f.rs1 f.rs2⟩,
    ⟨0x09, 5, true, .r2, fun f => .subCarryU f.rd f.rs1 f.rs2⟩ ]

/-- MUL (R74). -/
def rowsMul : List Row :=
  [ ⟨0x0C, 0, false, .r2, fun f => .mulWrap f.rd f.rs1 f.rs2⟩,
    ⟨0x0C, 0, true, .r2, fun f => .mulWrapU f.rd f.rs1 f.rs2⟩,
    ⟨0x0C, 1, false, .r2, fun f => .mulOvf f.rd f.rs1 f.rs2⟩,
    ⟨0x0C, 1, true, .r2, fun f => .mulOvfU f.rd f.rs1 f.rs2⟩,
    ⟨0x0C, 2, false, .r2, fun f => .mulChk f.rd f.rs1 f.rs2⟩,
    ⟨0x0C, 2, true, .r2, fun f => .mulChkU f.rd f.rs1 f.rs2⟩,
    ⟨0x0C, 3, false, .r2, fun f => .mulUnchk f.rd f.rs1 f.rs2⟩,
    ⟨0x0C, 3, true, .r2, fun f => .mulUnchkU f.rd f.rs1 f.rs2⟩,
    ⟨0x0C, 4, false, .r2, fun f => .mulSat f.rd f.rs1 f.rs2⟩,
    ⟨0x0C, 4, true, .r2, fun f => .mulSatU f.rd f.rs1 f.rs2⟩,
    ⟨0x0C, 6, false, .r2d, fun f => .mulWide f.rd f.rd2 f.rs1 f.rs2⟩,
    ⟨0x0C, 6, true, .r2d, fun f => .mulWideU f.rd f.rd2 f.rs1 f.rs2⟩,
    ⟨0x0C, 5, false, .r3d, fun f => .mulCarry f.rd f.rd2 f.rs1 f.rs2 f.rs3⟩,
    ⟨0x0C, 5, true, .r3d, fun f => .mulCarryU f.rd f.rd2 f.rs1 f.rs2 f.rs3⟩ ]

/-- DIVFULL, DIV and REM (R74). -/
def rowsDiv : List Row :=
  [ ⟨0x10, 0, false, .r2d, fun f => .divfull f.rd f.rd2 f.rs1 f.rs2⟩,
    ⟨0x10, 0, true, .r2d, fun f => .divfullU f.rd f.rd2 f.rs1 f.rs2⟩,
    ⟨0x11, 0, false, .r2, fun f => .divWrap f.rd f.rs1 f.rs2⟩,
    ⟨0x11, 0, true, .r2, fun f => .divWrapU f.rd f.rs1 f.rs2⟩,
    ⟨0x11, 1, false, .r2, fun f => .divOvf f.rd f.rs1 f.rs2⟩,
    ⟨0x11, 1, true, .r2, fun f => .divOvfU f.rd f.rs1 f.rs2⟩,
    ⟨0x11, 2, false, .r2, fun f => .divChk f.rd f.rs1 f.rs2⟩,
    ⟨0x11, 2, true, .r2, fun f => .divChkU f.rd f.rs1 f.rs2⟩,
    ⟨0x11, 3, false, .r2, fun f => .divUnchk f.rd f.rs1 f.rs2⟩,
    ⟨0x11, 3, true, .r2, fun f => .divUnchkU f.rd f.rs1 f.rs2⟩,
    ⟨0x11, 4, false, .r2, fun f => .divSat f.rd f.rs1 f.rs2⟩,
    ⟨0x11, 4, true, .r2, fun f => .divSatU f.rd f.rs1 f.rs2⟩,
    ⟨0x12, 0, false, .r2, fun f => .remWrap f.rd f.rs1 f.rs2⟩,
    ⟨0x12, 0, true, .r2, fun f => .remWrapU f.rd f.rs1 f.rs2⟩,
    ⟨0x12, 1, false, .r2, fun f => .remOvf f.rd f.rs1 f.rs2⟩,
    ⟨0x12, 1, true, .r2, fun f => .remOvfU f.rd f.rs1 f.rs2⟩,
    ⟨0x12, 2, false, .r2, fun f => .remChk f.rd f.rs1 f.rs2⟩,
    ⟨0x12, 2, true, .r2, fun f => .remChkU f.rd f.rs1 f.rs2⟩,
    ⟨0x12, 3, false, .r2, fun f => .remUnchk f.rd f.rs1 f.rs2⟩,
    ⟨0x12, 3, true, .r2, fun f => .remUnchkU f.rd f.rs1 f.rs2⟩,
    ⟨0x12, 4, false, .r2, fun f => .remSat f.rd f.rs1 f.rs2⟩,
    ⟨0x12, 4, true, .r2, fun f => .remSatU f.rd f.rs1 f.rs2⟩ ]

/-- The modular commands and GCD (R74). -/
def rowsModular : List Row :=
  [ ⟨0x14, 0, false, .r3, fun f => .madd f.rd f.rs1 f.rs2 f.rs3⟩,
    ⟨0x15, 0, false, .r3, fun f => .msub f.rd f.rs1 f.rs2 f.rs3⟩,
    ⟨0x16, 0, false, .r3, fun f => .mmul f.rd f.rs1 f.rs2 f.rs3⟩,
    ⟨0x17, 0, false, .r3, fun f => .mdiv f.rd f.rs1 f.rs2 f.rs3⟩,
    ⟨0x18, 0, false, .r3, fun f => .mrem f.rd f.rs1 f.rs2 f.rs3⟩,
    ⟨0x19, 0, false, .r3, fun f => .mpow f.rd f.rs1 f.rs2 f.rs3⟩,
    ⟨0x1A, 0, false, .r2, fun f => .gcd f.rd f.rs1 f.rs2⟩ ]

/-- POW, ROOT, SQRT and ISPRIME (R74). -/
def rowsPow : List Row :=
  [ ⟨0x1C, 0, false, .r2, fun f => .powWrap f.rd f.rs1 f.rs2⟩,
    ⟨0x1C, 0, true, .r2, fun f => .powWrapU f.rd f.rs1 f.rs2⟩,
    ⟨0x1C, 1, false, .r2, fun f => .powOvf f.rd f.rs1 f.rs2⟩,
    ⟨0x1C, 1, true, .r2, fun f => .powOvfU f.rd f.rs1 f.rs2⟩,
    ⟨0x1C, 2, false, .r2, fun f => .powChk f.rd f.rs1 f.rs2⟩,
    ⟨0x1C, 2, true, .r2, fun f => .powChkU f.rd f.rs1 f.rs2⟩,
    ⟨0x1C, 3, false, .r2, fun f => .powUnchk f.rd f.rs1 f.rs2⟩,
    ⟨0x1C, 3, true, .r2, fun f => .powUnchkU f.rd f.rs1 f.rs2⟩,
    ⟨0x1C, 4, false, .r2, fun f => .powSat f.rd f.rs1 f.rs2⟩,
    ⟨0x1C, 4, true, .r2, fun f => .powSatU f.rd f.rs1 f.rs2⟩,
    ⟨0x1D, 0, false, .r2, fun f => .root f.rd f.rs1 f.rs2⟩,
    ⟨0x1D, 0, true, .r2, fun f => .rootU f.rd f.rs1 f.rs2⟩,
    ⟨0x1E, 0, false, .r1, fun f => .sqrt f.rd f.rs1⟩,
    ⟨0x1F, 0, false, .prm, fun f => .isprime f.rs1 f.rs2⟩ ]

/-- Logic, shifts, rotates and byte order (R74). -/
def rowsBits : List Row :=
  [ ⟨0x20, 0, false, .r2, fun f => .bitAnd f.rd f.rs1 f.rs2⟩,
    ⟨0x21, 0, false, .r2, fun f => .bitOr f.rd f.rs1 f.rs2⟩,
    ⟨0x22, 0, false, .r2, fun f => .bitXor f.rd f.rs1 f.rs2⟩,
    ⟨0x23, 0, false, .r1, fun f => .bitNot f.rd f.rs1⟩,
    ⟨0x24, 0, false, .r2s, fun f => .shl f.rd f.rs1 f.rs2⟩,
    ⟨0x25, 0, false, .r2s, fun f => .shr f.rd f.rs1 f.rs2⟩,
    ⟨0x26, 0, false, .r2s, fun f => .rotl f.rd f.rs1 f.rs2⟩,
    ⟨0x27, 0, false, .r2s, fun f => .rotr f.rd f.rs1 f.rs2⟩,
    ⟨0x28, 0, false, .r1, fun f => .revbits f.rd f.rs1⟩,
    ⟨0x29, 0, false, .r1, fun f => .bswap f.rd f.rs1⟩,
    ⟨0x2A, 0, false, .r1, fun f => .tobe f.rd f.rs1⟩,
    ⟨0x2B, 0, false, .r1, fun f => .tole f.rd f.rs1⟩ ]

/-- Counts and flag access (R74). -/
def rowsCountFlag : List Row :=
  [ ⟨0x2C, 0, false, .cnt, fun f => .popcnt f.rd f.rs1⟩,
    ⟨0x2D, 0, false, .cnt, fun f => .clz f.rd f.rs1⟩,
    ⟨0x2E, 0, false, .cnt, fun f => .ctz f.rd f.rs1⟩,
    ⟨0x2F, 0, false, .cnt, fun f => .clzw f.rd f.rs1⟩,
    ⟨0x30, 0, false, .cnt, fun f => .ctzw f.rd f.rs1⟩,
    ⟨0x34, 0, false, .cnt, fun f => .fget f.rd f.rs1⟩,
    ⟨0x35, 0, false, .fim, fun f => .fset f.rd f.imm⟩,
    ⟨0x36, 0, false, .fim, fun f => .fclr f.rd f.imm⟩,
    ⟨0x37, 0, false, .fts, fun f => .ftest f.rs1 f.imm⟩,
    ⟨0x38, 0, false, .cim, fun f => .condw f.imm⟩ ]

/-- The complete opcode map (R74). -/
def opcodeMap : List Row :=
  rowsConstruct ++ rowsAddSub ++ rowsMul ++ rowsDiv ++ rowsModular ++ rowsPow ++ rowsBits ++ rowsCountFlag

/-- The two decode faults (R302, R303). -/
inductive DecodeFault where
  | illegalOpcode
  | illegalForm
deriving DecidableEq, Repr

/-- Decoding of the fields, in the order of R80: the opcode, then VAR and U, then the reserved bits, then the fields the
format does not use, then RD = RD2. -/
def decodeFields (f : Fields) : Except DecodeFault Instr :=
  if opcodeMap.all (fun r => r.op != f.op) then .error .illegalOpcode
  else
    match opcodeMap.find? (fun r => r.op == f.op && r.var == f.var && r.u == f.u) with
    | none => .error .illegalForm
    | some r =>
      if f.res21 || f.res0 then .error .illegalForm
      else if !r.fmt.unusedZero f then .error .illegalForm
      else if r.fmt.twoDest && f.rd == f.rd2 then .error .illegalForm
      else .ok (r.build f)

/-- Decoding is total: every 32-bit word is one command or one of the two decode faults (R80). -/
def decode (c : Word) : Except DecodeFault Instr := decodeFields (fieldsOf c)

/-- The command the decoder reads from an instruction whose bits are `w`, `nbits` of them given and the others zero. -/
def decodeTableWord (nbits w : Nat) : Option Instr :=
  match decode (BitVec.ofNat 32 (w % 2 ^ nbits)) with
  | .ok i => some i
  | .error _ => none

/-- The fields of a form, with both reserved bits zero (R76). -/
def Fields.form (op : Fin 64) (var : Fin 8) (u : Bool) (rd rs1 rs2 rs3 rd2 : Fin 16) : Fields :=
  { op := op, var := var, u := u, res21 := false, rd := rd, rs1 := rs1, rs2 := rs2, rs3 := rs3, rd2 := rd2,
    res0 := false }

/-- The fields of each command, every unused field zero (R74, R76). -/
def Instr.fields : Instr → Fields
  | .vzero rd => .form 0x01 0 false rd 0 0 0 0
  | .vone rd => .form 0x02 0 false rd 0 0 0 0
  | .vmax rd => .form 0x03 0 false rd 0 0 0 0
  | .vfromu rd rs2 => .form 0x04 0 false rd 0 rs2 0 0
  | .vmov rd rs1 => .form 0x05 0 false rd rs1 0 0 0
  | .addWrap rd rs1 rs2 => .form 0x08 0 false rd rs1 rs2 0 0
  | .addWrapU rd rs1 rs2 => .form 0x08 0 true rd rs1 rs2 0 0
  | .addOvf rd rs1 rs2 => .form 0x08 1 false rd rs1 rs2 0 0
  | .addOvfU rd rs1 rs2 => .form 0x08 1 true rd rs1 rs2 0 0
  | .addChk rd rs1 rs2 => .form 0x08 2 false rd rs1 rs2 0 0
  | .addChkU rd rs1 rs2 => .form 0x08 2 true rd rs1 rs2 0 0
  | .addUnchk rd rs1 rs2 => .form 0x08 3 false rd rs1 rs2 0 0
  | .addUnchkU rd rs1 rs2 => .form 0x08 3 true rd rs1 rs2 0 0
  | .addSat rd rs1 rs2 => .form 0x08 4 false rd rs1 rs2 0 0
  | .addSatU rd rs1 rs2 => .form 0x08 4 true rd rs1 rs2 0 0
  | .addCarry rd rs1 rs2 => .form 0x08 5 false rd rs1 rs2 0 0
  | .addCarryU rd rs1 rs2 => .form 0x08 5 true rd rs1 rs2 0 0
  | .subWrap rd rs1 rs2 => .form 0x09 0 false rd rs1 rs2 0 0
  | .subWrapU rd rs1 rs2 => .form 0x09 0 true rd rs1 rs2 0 0
  | .subOvf rd rs1 rs2 => .form 0x09 1 false rd rs1 rs2 0 0
  | .subOvfU rd rs1 rs2 => .form 0x09 1 true rd rs1 rs2 0 0
  | .subChk rd rs1 rs2 => .form 0x09 2 false rd rs1 rs2 0 0
  | .subChkU rd rs1 rs2 => .form 0x09 2 true rd rs1 rs2 0 0
  | .subUnchk rd rs1 rs2 => .form 0x09 3 false rd rs1 rs2 0 0
  | .subUnchkU rd rs1 rs2 => .form 0x09 3 true rd rs1 rs2 0 0
  | .subSat rd rs1 rs2 => .form 0x09 4 false rd rs1 rs2 0 0
  | .subSatU rd rs1 rs2 => .form 0x09 4 true rd rs1 rs2 0 0
  | .subCarry rd rs1 rs2 => .form 0x09 5 false rd rs1 rs2 0 0
  | .subCarryU rd rs1 rs2 => .form 0x09 5 true rd rs1 rs2 0 0
  | .mulWrap rd rs1 rs2 => .form 0x0C 0 false rd rs1 rs2 0 0
  | .mulWrapU rd rs1 rs2 => .form 0x0C 0 true rd rs1 rs2 0 0
  | .mulOvf rd rs1 rs2 => .form 0x0C 1 false rd rs1 rs2 0 0
  | .mulOvfU rd rs1 rs2 => .form 0x0C 1 true rd rs1 rs2 0 0
  | .mulChk rd rs1 rs2 => .form 0x0C 2 false rd rs1 rs2 0 0
  | .mulChkU rd rs1 rs2 => .form 0x0C 2 true rd rs1 rs2 0 0
  | .mulUnchk rd rs1 rs2 => .form 0x0C 3 false rd rs1 rs2 0 0
  | .mulUnchkU rd rs1 rs2 => .form 0x0C 3 true rd rs1 rs2 0 0
  | .mulSat rd rs1 rs2 => .form 0x0C 4 false rd rs1 rs2 0 0
  | .mulSatU rd rs1 rs2 => .form 0x0C 4 true rd rs1 rs2 0 0
  | .mulWide rd rd2 rs1 rs2 => .form 0x0C 6 false rd rs1 rs2 0 rd2
  | .mulWideU rd rd2 rs1 rs2 => .form 0x0C 6 true rd rs1 rs2 0 rd2
  | .mulCarry rd rd2 rs1 rs2 rs3 => .form 0x0C 5 false rd rs1 rs2 rs3 rd2
  | .mulCarryU rd rd2 rs1 rs2 rs3 => .form 0x0C 5 true rd rs1 rs2 rs3 rd2
  | .divfull rd rd2 rs1 rs2 => .form 0x10 0 false rd rs1 rs2 0 rd2
  | .divfullU rd rd2 rs1 rs2 => .form 0x10 0 true rd rs1 rs2 0 rd2
  | .divWrap rd rs1 rs2 => .form 0x11 0 false rd rs1 rs2 0 0
  | .divWrapU rd rs1 rs2 => .form 0x11 0 true rd rs1 rs2 0 0
  | .divOvf rd rs1 rs2 => .form 0x11 1 false rd rs1 rs2 0 0
  | .divOvfU rd rs1 rs2 => .form 0x11 1 true rd rs1 rs2 0 0
  | .divChk rd rs1 rs2 => .form 0x11 2 false rd rs1 rs2 0 0
  | .divChkU rd rs1 rs2 => .form 0x11 2 true rd rs1 rs2 0 0
  | .divUnchk rd rs1 rs2 => .form 0x11 3 false rd rs1 rs2 0 0
  | .divUnchkU rd rs1 rs2 => .form 0x11 3 true rd rs1 rs2 0 0
  | .divSat rd rs1 rs2 => .form 0x11 4 false rd rs1 rs2 0 0
  | .divSatU rd rs1 rs2 => .form 0x11 4 true rd rs1 rs2 0 0
  | .remWrap rd rs1 rs2 => .form 0x12 0 false rd rs1 rs2 0 0
  | .remWrapU rd rs1 rs2 => .form 0x12 0 true rd rs1 rs2 0 0
  | .remOvf rd rs1 rs2 => .form 0x12 1 false rd rs1 rs2 0 0
  | .remOvfU rd rs1 rs2 => .form 0x12 1 true rd rs1 rs2 0 0
  | .remChk rd rs1 rs2 => .form 0x12 2 false rd rs1 rs2 0 0
  | .remChkU rd rs1 rs2 => .form 0x12 2 true rd rs1 rs2 0 0
  | .remUnchk rd rs1 rs2 => .form 0x12 3 false rd rs1 rs2 0 0
  | .remUnchkU rd rs1 rs2 => .form 0x12 3 true rd rs1 rs2 0 0
  | .remSat rd rs1 rs2 => .form 0x12 4 false rd rs1 rs2 0 0
  | .remSatU rd rs1 rs2 => .form 0x12 4 true rd rs1 rs2 0 0
  | .madd rd rs1 rs2 rs3 => .form 0x14 0 false rd rs1 rs2 rs3 0
  | .msub rd rs1 rs2 rs3 => .form 0x15 0 false rd rs1 rs2 rs3 0
  | .mmul rd rs1 rs2 rs3 => .form 0x16 0 false rd rs1 rs2 rs3 0
  | .mdiv rd rs1 rs2 rs3 => .form 0x17 0 false rd rs1 rs2 rs3 0
  | .mrem rd rs1 rs2 rs3 => .form 0x18 0 false rd rs1 rs2 rs3 0
  | .mpow rd rs1 rs2 rs3 => .form 0x19 0 false rd rs1 rs2 rs3 0
  | .gcd rd rs1 rs2 => .form 0x1A 0 false rd rs1 rs2 0 0
  | .powWrap rd rs1 rs2 => .form 0x1C 0 false rd rs1 rs2 0 0
  | .powWrapU rd rs1 rs2 => .form 0x1C 0 true rd rs1 rs2 0 0
  | .powOvf rd rs1 rs2 => .form 0x1C 1 false rd rs1 rs2 0 0
  | .powOvfU rd rs1 rs2 => .form 0x1C 1 true rd rs1 rs2 0 0
  | .powChk rd rs1 rs2 => .form 0x1C 2 false rd rs1 rs2 0 0
  | .powChkU rd rs1 rs2 => .form 0x1C 2 true rd rs1 rs2 0 0
  | .powUnchk rd rs1 rs2 => .form 0x1C 3 false rd rs1 rs2 0 0
  | .powUnchkU rd rs1 rs2 => .form 0x1C 3 true rd rs1 rs2 0 0
  | .powSat rd rs1 rs2 => .form 0x1C 4 false rd rs1 rs2 0 0
  | .powSatU rd rs1 rs2 => .form 0x1C 4 true rd rs1 rs2 0 0
  | .root rd rs1 rs2 => .form 0x1D 0 false rd rs1 rs2 0 0
  | .rootU rd rs1 rs2 => .form 0x1D 0 true rd rs1 rs2 0 0
  | .sqrt rd rs1 => .form 0x1E 0 false rd rs1 0 0 0
  | .isprime rs1 rs2 => .form 0x1F 0 false 0 rs1 rs2 0 0
  | .bitAnd rd rs1 rs2 => .form 0x20 0 false rd rs1 rs2 0 0
  | .bitOr rd rs1 rs2 => .form 0x21 0 false rd rs1 rs2 0 0
  | .bitXor rd rs1 rs2 => .form 0x22 0 false rd rs1 rs2 0 0
  | .bitNot rd rs1 => .form 0x23 0 false rd rs1 0 0 0
  | .shl rd rs1 rs2 => .form 0x24 0 false rd rs1 rs2 0 0
  | .shr rd rs1 rs2 => .form 0x25 0 false rd rs1 rs2 0 0
  | .rotl rd rs1 rs2 => .form 0x26 0 false rd rs1 rs2 0 0
  | .rotr rd rs1 rs2 => .form 0x27 0 false rd rs1 rs2 0 0
  | .revbits rd rs1 => .form 0x28 0 false rd rs1 0 0 0
  | .bswap rd rs1 => .form 0x29 0 false rd rs1 0 0 0
  | .tobe rd rs1 => .form 0x2A 0 false rd rs1 0 0 0
  | .tole rd rs1 => .form 0x2B 0 false rd rs1 0 0 0
  | .popcnt rd rs1 => .form 0x2C 0 false rd rs1 0 0 0
  | .clz rd rs1 => .form 0x2D 0 false rd rs1 0 0 0
  | .ctz rd rs1 => .form 0x2E 0 false rd rs1 0 0 0
  | .clzw rd rs1 => .form 0x2F 0 false rd rs1 0 0 0
  | .ctzw rd rs1 => .form 0x30 0 false rd rs1 0 0 0
  | .fget rd rs1 => .form 0x34 0 false rd rs1 0 0 0
  | .fset rd imm => .form 0x35 0 false rd 0 0 imm.toFin 0
  | .fclr rd imm => .form 0x36 0 false rd 0 0 imm.toFin 0
  | .ftest rs1 imm => .form 0x37 0 false 0 rs1 0 imm.toFin 0
  | .condw imm => .form 0x38 0 false 0 0 0 imm.toFin 0

/-- The command word with the given fields (R70). -/
def Fields.word (f : Fields) : Word :=
  BitVec.ofNat 32
    (f.op.val * 2 ^ 26 + f.var.val * 2 ^ 23 + f.u.toNat * 2 ^ 22 + f.res21.toNat * 2 ^ 21 + f.rd.val * 2 ^ 17
      + f.rs1.val * 2 ^ 13 + f.rs2.val * 2 ^ 9 + f.rs3.val * 2 ^ 5 + f.rd2.val * 2 + f.res0.toNat)

/-- The one encoding of a command (R76). -/
def encode (i : Instr) : Word := i.fields.word

end Sys2Proof
end

