-- ==== Sys2Proof/Config.lean ====
section
/-! DEFINITION. What is fixed for one engine (R5, R334), and the unspecified values the spec leaves open (R53, R54, R38). -/

namespace Sys2Proof

/-- The word widths an engine can be built with (R5, D4). -/
inductive WordWidth where
  | w8 | w16 | w32 | w64 | w128
deriving DecidableEq, Repr

/-- `b`, the number of bits of one word (R5). -/
def WordWidth.bits : WordWidth → Nat
  | .w8 => 8
  | .w16 => 16
  | .w32 => 32
  | .w64 => 64
  | .w128 => 128

/-- The parameters of one engine (R5). The three proof fields are the limits of R334: a configuration that breaks one of
them cannot be written down, so the model has no engine for it. `HOST_MAP` is not a parameter of the model (R53). -/
structure Config where
  width : WordWidth
  words : Nat
  hostBigEndian : Bool
  words_pos : 1 ≤ words
  words_le : words ≤ 65535
  wide : 128 < width.bits * words
deriving DecidableEq, Repr

namespace Config

/-- `b`, bits per word (R5). -/
def wordBits (c : Config) : Nat := c.width.bits

/-- `T = b * N`, the total width of a big register (R5). -/
def totalBits (c : Config) : Nat := c.width.bits * c.words

/-- `SW = max(b, 64)`, the width of a scalar register (R5, R25). -/
def scalarBits (c : Config) : Nat := max c.width.bits 64

/-- `M = 2^(b*N)`, the number of values of a big register (R6). -/
def modulus (c : Config) : Nat := 2 ^ c.totalBits

/-- CFG-A of 95_test_vectors.md, the source's own test configuration: b = 128, N = 2, little-endian host. -/
def cfgA : Config :=
  { width := .w128, words := 2, hostBigEndian := false,
    words_pos := by decide, words_le := by decide, wide := by decide }

/-- CFG-C of 95_test_vectors.md: b = 32, N = 8, little-endian host. -/
def cfgC : Config :=
  { width := .w32, words := 8, hostBigEndian := false,
    words_pos := by decide, words_le := by decide, wide := by decide }

/-- CFG-H of 95_test_vectors.md: CFG-A with a big-endian host. -/
def cfgH : Config :=
  { width := .w128, words := 2, hostBigEndian := true,
    words_pos := by decide, words_le := by decide, wide := by decide }

/-- `MUL_THRESHOLD` (R5, D30): N above which the multiplier uses algorithm 1. Which algorithm runs is not observable
(R140); only Machine/Reference.lean reads this. -/
def mulThreshold : Nat := 16

/-- The unspecified values of R38, R53 and R54: the `n`th value drawn, `w` bits wide. It has no body, so nothing can be
proved of it: a statement about such a value holds for every value. DESIGN CHOICE, safe: log entry 4. -/
opaque freeBits (w n : Nat) : BitVec w

end Config

end Sys2Proof
end

