-- ==== Sys2Proof/Machine/State.lean ====
section
/-! DEFINITION. The state of the engine and of its host port, as plain data (10_state.md), the reasons a step can stop,
and the state right after reset (R38, R340). -/

namespace Sys2Proof.Machine

/-- The cause codes of R301. Codes 8 to 15 are reserved and never written, so they have no constructor. -/
inductive Cause where
  | none
  | illegalOpcode
  | illegalForm
  | uncheckedOverflow
  | uncheckedUnderflow
  | uncheckedDivzero
  | gcdZero
  | rootZeroExp
deriving DecidableEq, Repr

/-- One big register: its `T` bits, word 0 lowest, and its four sticky flags (R20, R22). The words are a view of `value`
(R7), so they have one home. -/
structure BigReg (cfg : Config) where
  value : BitVec cfg.totalBits
  flags : FlagField
deriving DecidableEq, Repr

/-- STATUS, CSR 1 (R29). -/
structure Status where
  busy : Bool
  fault : Bool
  done : Bool
  lost : Bool
deriving DecidableEq, Repr

/-- The condition register COND (R26). -/
structure Cond where
  b : Bool
  none : Bool
deriving DecidableEq, Repr

/-- The interrupt enables IE, CSR 4 (R32). -/
structure IntEnable where
  doneIE : Bool
  faultIE : Bool
deriving DecidableEq, Repr

/-- The host-port operations of R53. A word index, a value and a CSR number are naturals, as R53 writes them; `v` and `k`
cannot be out of range (R54). -/
inductive HostOp where
  | wrWord (v : VReg) (i : Nat) (w : Nat)
  | rdWord (v : VReg) (i : Nat)
  | wrFlags (v : VReg) (x : Nat)
  | rdFlags (v : VReg)
  | wrS (k : SReg) (x : Nat)
  | rdS (k : SReg)
  | wrCsr (c : Nat) (x : Nat)
  | rdCsr (c : Nat)
deriving DecidableEq, Repr

/-- One place of the total order of R62: a step of the host, a step of the engine, or the reset input (R340). -/
inductive Turn where
  | host (op : HostOp)
  | engine
  | hardReset
deriving DecidableEq, Repr

/-- The whole machine. `cfg` to `ifc` are the spec's state (R20 to R34); `order`, `returned` and `draws` are the model's
own fields. -/
structure State where
  /-- The parameters of this engine, constant (R5, R33). -/
  cfg : Config
  /-- V0..V15 (R20). -/
  v : Vector (BigReg cfg) 16
  /-- S0..S15, `SW` bits each (R25). -/
  s : Vector (BitVec cfg.scalarBits) 16
  /-- COND, CSR 6 (R26). -/
  cond : Cond
  /-- STATUS, CSR 1 (R29). -/
  status : Status
  /-- CAUSE, CSR 2 (R30). -/
  cause : Cause
  /-- FCMD, CSR 3 (R30). -/
  fcmd : Word
  /-- IE, CSR 4 (R32). -/
  ie : IntEnable
  /-- IFC, the in-flight command latch (R34). -/
  ifc : Option Word
  /-- The part of the total order of R62 that is still to come, next turn first. DESIGN CHOICE, log entry 5. -/
  order : List Turn
  /-- The values host reads have returned, newest first. DESIGN CHOICE, log entry 11. -/
  returned : List Nat
  /-- How many unspecified values have been drawn. DESIGN CHOICE, log entry 4. -/
  draws : Nat
deriving DecidableEq, Repr

/-- Why the machine stops with a fault. The engine's own faults (R301) are next states and are not listed here. -/
inductive Fault where
  /-- Raised by the host port: the host offers a value wider than the unit it writes, which is no operation of the port
  (R53 bounds each value, R58). DEDUCED, safe: log entry 9. -/
  | hostValueTooWide
deriving DecidableEq, Repr

/-- Why a step has no meaning. -/
inductive Refusal where
  /-- The instruction has no meaning in the model yet; raised by an arm of `exec` and by nothing else. Safe. -/
  | notModelled (mnemonic : String)
deriving DecidableEq, Repr

/-- The state after a hard reset of an engine with parameters `cfg` (R38, R340): the control registers, COND and IFC as
the spec gives them, the register files holding `v` and `s`, whose contents the spec leaves UNSPECIFIED. -/
def State.afterReset (cfg : Config) (v : Vector (BigReg cfg) 16) (s : Vector (BitVec cfg.scalarBits) 16) : State :=
  { cfg := cfg
    v := v
    s := s
    cond := { b := false, none := false }
    status := { busy := false, fault := false, done := false, lost := false }
    cause := .none
    fcmd := 0
    ie := { doneIE := false, faultIE := false }
    ifc := none
    order := []
    returned := []
    draws := 0 }

/-- The machine right after reset: the source's own configuration (DESIGN CHOICE, log entry 1), with V and S zero, where
the spec leaves them UNSPECIFIED (DESIGN CHOICE, unsafe: log entry 2). -/
def State.reset : State :=
  State.afterReset Config.cfgA (Vector.replicate 16 { value := 0, flags := 0 }) (Vector.replicate 16 0)

end Sys2Proof.Machine
end

