-- ==== Sys2Proof/Machine/Flags.lean ====
section
/-! DEFINITION. The sticky flags (R22 to R24): their masks, and the set each condition adds. -/

namespace Sys2Proof.Machine

/-- `O`, OVERFLOW, flag bit 0 (R22). -/
def flagO : FlagField := 0b0001#4
/-- `U`, UNDERFLOW, flag bit 1 (R22). -/
def flagU : FlagField := 0b0010#4
/-- `I`, INFINITY, flag bit 2 (R22). -/
def flagI : FlagField := 0b0100#4
/-- `D`, DIVIDED_BY_ZERO, flag bit 3 (R22). -/
def flagD : FlagField := 0b1000#4

/-- The flags `m` if the condition holds, else none. -/
def flagsWhen (cond : Bool) (m : FlagField) : FlagField := if cond then m else 0

/-- Plain overflow sets OVERFLOW alone (R24). -/
def overflowFlags (c : Bool) : FlagField := flagsWhen c flagO

/-- A borrow out of the top word, or a 1-bit lost at the bottom, sets UNDERFLOW alone (R24, R251). -/
def underflowFlags (c : Bool) : FlagField := flagsWhen c flagU

/-- What a zero divisor or a zero modulus adds to a quotient or sentinel: OVERFLOW, INFINITY, DIVIDED_BY_ZERO (R24). -/
def quotientFlags : FlagField := flagO ||| flagI ||| flagD

/-- What a zero divisor adds to a remainder: DIVIDED_BY_ZERO alone (R24). -/
def remainderFlags : FlagField := flagD

/-- A destination receives `f OR new` (R23). -/
def inherit (f new : FlagField) : FlagField := f ||| new

end Sys2Proof.Machine
end

