-- ==== Sys2Proof/Machine/Arith.lean ====
section
/-! DEFINITION. The datapath as functions on naturals (R8, R10). `m` is the modulus `M = 2^T`, `t` the total width `T`.
Where the spec's formula cannot be evaluated on large operands (an exponent or an amount of many bits), the function is
the spec's own method, and Sys2Proof/Laws/Arith.lean proves the formula of it (log entry 15). -/

namespace Sys2Proof.Machine

/-- The number of bits of `x` without leading zeros; `bitLen 0 = 0` (R10). -/
def bitLen (x : Nat) : Nat := if x = 0 then 0 else Nat.log2 x + 1

/-- `Add(a, r, cin)` (R120). -/
def addCarry (m a r : Nat) (cin : Bool) : Nat × Bool :=
  let s := a + r + cin.toNat
  (s % m, decide (m ≤ s))

/-- `Sub(a, r, bin)`, over the integers (R120). -/
def subBorrow (m a r : Nat) (bin : Bool) : Nat × Bool :=
  let d : Int := (a : Int) - r - bin.toNat
  ((d % (m : Int)).toNat, decide (d < 0))

/-- `Mul(a, r, c) = (lo, hi)` (R140). -/
def mulFull (m a r c : Nat) : Nat × Nat :=
  let p := a * r + c
  (p % m, p / m)

/-- What `DivFull` answers: the quotient and the remainder, each with the flags it adds (R160). -/
structure DivResult where
  quot : Nat
  quotNew : FlagField
  rem : Nat
  remNew : FlagField
deriving DecidableEq, Repr

/-- `DivFull(a, r)`: the zero divisor is checked first, for every `a` (R160). -/
def divFull (m a r : Nat) : DivResult :=
  if r = 0 then { quot := m - 1, quotNew := quotientFlags, rem := 0, remNew := remainderFlags }
  else { quot := a / r, quotNew := 0, rem := a % r, remNew := 0 }

/-- Left-to-right square-and-multiply with wrapping multiplication (R200, R201): the power modulo `m`, and whether one of
the multiplications overflowed. `n` bounds the bit length of the exponent `e`. -/
def powLoop (m a : Nat) : Nat → Nat → Nat × Bool
  | 0, _ => (1, false)
  | n + 1, e =>
    match powLoop m a n (e / 2) with
    | (x, ov) =>
      let sq := x * x
      if e % 2 = 1 then
        let p := sq % m * a
        (p % m, ov || decide (m ≤ sq) || decide (m ≤ p))
      else (sq % m, ov || decide (m ≤ sq))

/-- `Pow(a, e) = (a^e mod M, a^e ≥ M)` (R200). -/
def powOverflow (m a e : Nat) : Nat × Bool := powLoop m a (bitLen e) e

/-- Square-and-multiply modulo `m` (R186). -/
def powModLoop (m a : Nat) : Nat → Nat → Nat
  | 0, _ => 1 % m
  | n + 1, e =>
    match powModLoop m a n (e / 2) with
    | x => if e % 2 = 1 then x * x % m * a % m else x * x % m

/-- `a^e mod m`, exact (R186). -/
def powMod (m a e : Nat) : Nat := powModLoop m a (bitLen e) e

/-- The binary search of R208 from bit position `k - 1` down: a bit stays set iff the candidate's power does not overflow
and does not exceed `a`. -/
def rootLoop (m a e : Nat) : Nat → Nat → Nat
  | 0, res => res
  | k + 1, res =>
    match powOverflow m (res + 2 ^ k) e with
    | (p, ov) =>
      if !ov && p == a then res + 2 ^ k
      else if !ov && decide (p < a) then rootLoop m a e k (res + 2 ^ k)
      else rootLoop m a e k res

/-- `iroot(a, e)`, the largest `x` with `x^e ≤ a`, for `e ≥ 1` (R207), by the search of R208. -/
def iroot (m a e : Nat) : Nat := if a = 0 then 0 else rootLoop m a e ((bitLen a + e - 1) / e) 0

/-- The fixed witnesses of R220. -/
def witnessPrefix : List Nat := [2, 7, 61, 325, 9375, 28178, 450775, 9780504, 1795265022]

/-- Witness `k` of the primality test (R220). -/
def witness (k : Nat) : Nat := if k < 9 then witnessPrefix.getD k 0 else 1795265022 + (k - 8)

/-- `n - 1 = d * 2^s` with `d` odd (R221), by stripping zero bits; `fuel` bounds their number. -/
def stripTwos : Nat → Nat → Nat → Nat × Nat
  | 0, d, s => (d, s)
  | fuel + 1, d, s => if d % 2 = 0 then stripTwos fuel (d / 2) (s + 1) else (d, s)

/-- Some of the next `t` squarings of `x` modulo `n` equals `n - 1` (R221). -/
def squaringsReach (n : Nat) : Nat → Nat → Bool
  | 0, _ => false
  | t + 1, x =>
    match x * x % n with
    | y => y == n - 1 || squaringsReach n t y

/-- One round of R221: witness `k` does not prove `n` composite, where `n - 1 = d * 2^s`. -/
def witnessPasses (n d s k : Nat) : Bool :=
  match witness k % n with
  | 0 => true
  | w + 1 =>
    match powMod n (w + 1) d with
    | x => x == 1 || x == n - 1 || squaringsReach n (s - 1) x

/-- The witnesses `k`, `k + 1`, ... (`reps` of them) all pass, tried in that order (R221). -/
def witnessesPass (n d s : Nat) : Nat → Nat → Bool
  | 0, _ => true
  | reps + 1, k => witnessPasses n d s k && witnessesPass n d s reps (k + 1)

/-- `IsPrime(n, reps)` (R221). -/
def isPrime (n reps : Nat) : Bool :=
  if n = 0 || n = 1 then false
  else if n = 2 || n = 3 then true
  else if n % 2 = 0 then false
  else
    match stripTwos (bitLen n) (n - 1) 0 with
    | (d, s) => witnessesPass n d s reps 0

/-- `a * 2^n` modulo `2^t`, and whether a 1-bit is shifted out past the top (R250). -/
def shiftLeft (t a n : Nat) : Nat × Bool :=
  if t ≤ n then (0, a != 0)
  else
    let p := a * 2 ^ n
    (p % 2 ^ t, decide (2 ^ t ≤ p))

/-- `⌊a / 2^n⌋` for `a < 2^t`, and whether a 1-bit falls off the bottom (R251). -/
def shiftRight (t a n : Nat) : Nat × Bool :=
  if t ≤ n then (0, a != 0) else (a / 2 ^ n, a % 2 ^ n != 0)

/-- Rotation to the left by `n mod t` (R252). -/
def rotateLeft (t a n : Nat) : Nat :=
  let k := n % t
  (a * 2 ^ k % 2 ^ t) ||| (a / 2 ^ (t - k))

/-- Rotation to the right by `n mod t` (R253). -/
def rotateRight (t a n : Nat) : Nat :=
  let k := n % t
  (a / 2 ^ k) ||| (a * 2 ^ (t - k) % 2 ^ t)

/-- Bit `i` of the `t` bits of `a` moves to bit `t - 1 - i` (R260). -/
def reverseBits : Nat → Nat → Nat
  | 0, _ => 0
  | t + 1, a => a % 2 * 2 ^ t + reverseBits t (a / 2)

/-- Byte `j` of the `l` bytes of `a` moves to byte `l - 1 - j` (R261). -/
def swapBytes : Nat → Nat → Nat
  | 0, _ => 0
  | l + 1, a => a % 256 * 256 ^ l + swapBytes l (a / 256)

/-- The number of 1-bits among the low `t` bits of `a` (R271). -/
def popCount : Nat → Nat → Nat
  | 0, _ => 0
  | t + 1, a => a % 2 + popCount t (a / 2)

/-- `T - bitlen(a)` (R272). -/
def leadingZeros (t a : Nat) : Nat := t - bitLen a

/-- The number of zero bits below the lowest 1-bit among `t` bits; `t` if there is none (R273). -/
def trailingZeros : Nat → Nat → Nat
  | 0, _ => 0
  | t + 1, a => if a % 2 = 1 then 0 else trailingZeros t (a / 2) + 1

/-- The zero words above the top nonzero word of `n` words of `b` bits; `n` if there is none (R274). -/
def leadingZeroWords (b : Nat) : Nat → Nat → Nat
  | 0, _ => 0
  | n + 1, a => if a / 2 ^ (b * n) % 2 ^ b = 0 then leadingZeroWords b n a + 1 else 0

/-- The zero words below the lowest nonzero word of `n` words of `b` bits; `n` if there is none (R275). -/
def trailingZeroWords (b : Nat) : Nat → Nat → Nat
  | 0, _ => 0
  | n + 1, a => if a % 2 ^ b = 0 then trailingZeroWords b n (a / 2 ^ b) + 1 else 0

end Sys2Proof.Machine
end

