-- ==== Sys2Proof/Machine/Ops.lean ====
section
/-! DEFINITION. The named operations over the state: reading and writing registers, completing a command, taking a fault
and returning from one, the resets, and the result forms the variants of R72 share. -/

namespace Sys2Proof.Machine

/-- What a step or a meaning answers. -/
abbrev Answer := Host.Outcome State Fault Refusal

/-! ### Registers (R9, R20, R25, R26) -/

/-- `val(V[v])` (R9). -/
def State.big (s : State) (v : VReg) : Nat := s.v[v].value.toNat

/-- `V[v].f` (R9). -/
def State.bigFlags (s : State) (v : VReg) : FlagField := s.v[v].flags

/-- `S[k]`, as a natural (R9). -/
def State.scalar (s : State) (k : SReg) : Nat := s.s[k].toNat

/-- `V[v].w[i]`, bits `[i*b, (i+1)*b)` of the value (R7). -/
def State.word (s : State) (v : VReg) (i : Nat) : Nat :=
  s.big v / 2 ^ (s.cfg.wordBits * i) % 2 ^ s.cfg.wordBits

/-- `V[v] <- (x, f)`, for `x < M` (R9, R60). -/
def State.setBig (s : State) (v : VReg) (x : Nat) (f : FlagField) : State :=
  { s with v := s.v.set v { value := BitVec.ofNat _ x, flags := f } }

/-- `V[v].f <- f`, the words kept (R60). -/
def State.setFlags (s : State) (v : VReg) (f : FlagField) : State :=
  { s with v := s.v.set v { s.v[v] with flags := f } }

/-- The value `a` with its word `i` of `b` bits replaced by `w` (R7). -/
def replaceWord (b a i w : Nat) : Nat :=
  a % 2 ^ (b * i) + w * 2 ^ (b * i) + a / 2 ^ (b * (i + 1)) * 2 ^ (b * (i + 1))

/-- `V[v].w[i] <- w`, the other words and the flags kept (R53). -/
def State.setWord (s : State) (v : VReg) (i w : Nat) : State :=
  s.setBig v (replaceWord s.cfg.wordBits (s.big v) i w) (s.bigFlags v)

/-- `S[k] <- x`, for `x < 2^SW` (R9). -/
def State.setScalar (s : State) (k : SReg) (x : Nat) : State :=
  { s with s := s.s.set k (BitVec.ofNat _ x) }

/-- `COND.B <- b` (R26). -/
def State.setB (s : State) (b : Bool) : State := { s with cond := { s.cond with b := b } }

/-- `COND.NONE <- n` (R26). -/
def State.setNone (s : State) (n : Bool) : State := { s with cond := { s.cond with none := n } }

/-! ### The command cycle (R34), faults (R306, R310) and resets (R340, R341) -/

/-- A host write of the word `c` to CMD: discarded while BUSY or FAULT, else accepted (R34). -/
def State.offer (s : State) (c : Word) : State :=
  if s.status.busy || s.status.fault then { s with status := { s.status with lost := true } }
  else { s with ifc := some c, status := { s.status with busy := true, done := false } }

/-- The end of a command that did not fault (R34). -/
def State.completed (s : State) : State :=
  { s with ifc := none, status := { s.status with busy := false, done := true } }

/-- Fault entry (R306): the cause and the command word are recorded, BUSY and IFC cleared, and V, S, COND, DONE left
alone. FCMD gets the word in flight; a meaning run with none in flight, which no step does, keeps FCMD (log entry 7). -/
def takeFault (c : Cause) (s : State) : State :=
  { s with
    status := { s.status with busy := false, fault := true }
    cause := c
    fcmd := s.ifc.getD s.fcmd
    ifc := none }

/-- Return from a fault, CTRL.FACK (R35, R310). -/
def acknowledge (s : State) : State :=
  { s with status := { s.status with fault := false }, cause := .none, fcmd := 0 }

/-- Soft reset, CTRL.SRESET (R341): the control registers as after a hard reset, V and S kept, a command in flight
abandoned. -/
def softReset (s : State) : State :=
  { State.afterReset s.cfg s.v s.s with order := s.order, returned := s.returned, draws := s.draws }

/-- Hard reset (R340): the state of R38, whose register files hold unspecified values. DESIGN CHOICE, safe: log entry 3. -/
def hardReset (s : State) : State :=
  { State.afterReset s.cfg
      (Vector.ofFn fun i : Fin 16 =>
        { value := Config.freeBits _ (s.draws + 2 * i.val), flags := Config.freeBits _ (s.draws + 2 * i.val + 1) })
      (Vector.ofFn fun k : Fin 16 => Config.freeBits _ (s.draws + 32 + k.val)) with
    order := s.order, returned := s.returned, draws := s.draws + 48 }

/-- The interrupt output, a function of STATUS and IE (R320). -/
def State.irq (s : State) : Bool := (s.status.done && s.ie.doneIE) || (s.status.fault && s.ie.faultIE)

/-! ### How a command ends, and the result forms of the variants (R72) -/

/-- The command completes with the writes of `s`. -/
def complete (s : State) : Answer := .next s.completed

/-- `raise Fault(c)` (R9): fault entry, nothing else written. -/
def raise (c : Cause) (s : State) : Answer := .next (takeFault c s)

/-- `V[rd] <- (x, f | new)` with `f = V[rs1].f` (R11, R23). -/
def writeResult (rd rs1 : VReg) (x : Nat) (new : FlagField) (s : State) : State :=
  s.setBig rd x (inherit (s.bigFlags rs1) new)

/-- A command that writes one big register and adds the flags `new`; the WRAP forms among them. -/
def valueForm (rd rs1 : VReg) (x : Nat) (new : FlagField) (s : State) : Answer :=
  complete (writeResult rd rs1 x new s)

/-- OVF and CARRY: as WRAP, and COND.B gets the condition. -/
def ovfForm (rd rs1 : VReg) (x : Nat) (new : FlagField) (bad : Bool) (s : State) : Answer :=
  complete ((writeResult rd rs1 x new s).setB bad)

/-- CHK: on the condition COND.NONE is set and nothing else written; else the result, with COND.NONE cleared. -/
def chkForm (rd rs1 : VReg) (x : Nat) (bad : Bool) (s : State) : Answer :=
  if bad then complete (s.setNone true) else complete ((writeResult rd rs1 x 0 s).setNone false)

/-- UNCHK: on the condition a fault; else the result. -/
def unchkForm (rd rs1 : VReg) (x : Nat) (bad : Bool) (c : Cause) (s : State) : Answer :=
  if bad then raise c s else complete (writeResult rd rs1 x 0 s)

/-- Two destinations, both inheriting `V[rs1].f` (D6); the same destination twice is ILLEGAL_FORM (R77, log entry 8). -/
def pairForm (rd rd2 rs1 : VReg) (lo : Nat) (newLo : FlagField) (hi : Nat) (newHi : FlagField) (s : State) : Answer :=
  if rd = rd2 then raise .illegalForm s
  else complete ((writeResult rd rs1 lo newLo s).setBig rd2 hi (inherit (s.bigFlags rs1) newHi))

/-- A constructor: a fresh value with no flag (R100). -/
def freshForm (rd : VReg) (x : Nat) (s : State) : Answer := complete (s.setBig rd x 0)

/-- A command that writes one scalar register. -/
def scalarForm (rd : SReg) (x : Nat) (s : State) : Answer := complete (s.setScalar rd x)

end Sys2Proof.Machine
end

