-- ==== Sys2Proof/Machine/Operands.lean ====
section
/-! DEFINITION. The operand forms (R11, R73, R75): a big register, a single word, a whole scalar. -/

namespace Sys2Proof.Machine

/-- `r = val(V[RS2])`, the big form (R11). -/
def bigOperand (s : State) (rs2 : VReg) : Nat := s.big rs2

/-- `r = zext(S[RS2][b-1:0])`, the single-word form (R11, R73). -/
def wordOperand (s : State) (rs2 : SReg) : Nat := s.scalar rs2 % 2 ^ s.cfg.wordBits

/-- All `SW` bits of `S[RS2]`: shift and rotate amounts, repetition counts, the source of VFROMU (R73, D43). -/
def scalarOperand (s : State) (rs2 : SReg) : Nat := s.scalar rs2

end Sys2Proof.Machine
end

