-- ==== Sys2Proof/Machine/AddSub.lean ====
section
/-! DEFINITION. The adder and subtractor (41_addsub.md). -/

namespace Sys2Proof.Machine

/-- ADD.WRAP: the sum modulo `M`, OVERFLOW on a carry out (R121). -/
def addWrap (rd rs1 : VReg) (r : Nat) (s : State) : Answer :=
  let p := addCarry s.cfg.modulus (s.big rs1) r false
  valueForm rd rs1 p.1 (overflowFlags p.2) s

/-- ADD.WRAP (R121). -/
def execAddWrap (rd rs1 : VReg) (rs2 : VReg) (s : State) : Answer := addWrap rd rs1 (bigOperand s rs2) s

/-- ADD.WRAP.U (R121). -/
def execAddWrapU (rd rs1 : VReg) (rs2 : SReg) (s : State) : Answer := addWrap rd rs1 (wordOperand s rs2) s

/-- ADD.OVF: as WRAP, the carry out in COND.B (R122). -/
def addOvf (rd rs1 : VReg) (r : Nat) (s : State) : Answer :=
  let p := addCarry s.cfg.modulus (s.big rs1) r false
  ovfForm rd rs1 p.1 (overflowFlags p.2) p.2 s

/-- ADD.OVF (R122). -/
def execAddOvf (rd rs1 : VReg) (rs2 : VReg) (s : State) : Answer := addOvf rd rs1 (bigOperand s rs2) s

/-- ADD.OVF.U (R122). -/
def execAddOvfU (rd rs1 : VReg) (rs2 : SReg) (s : State) : Answer := addOvf rd rs1 (wordOperand s rs2) s

/-- ADD.CHK: None on a carry out (R123). -/
def addChk (rd rs1 : VReg) (r : Nat) (s : State) : Answer :=
  let p := addCarry s.cfg.modulus (s.big rs1) r false
  chkForm rd rs1 p.1 p.2 s

/-- ADD.CHK (R123). -/
def execAddChk (rd rs1 : VReg) (rs2 : VReg) (s : State) : Answer := addChk rd rs1 (bigOperand s rs2) s

/-- ADD.CHK.U (R123). -/
def execAddChkU (rd rs1 : VReg) (rs2 : SReg) (s : State) : Answer := addChk rd rs1 (wordOperand s rs2) s

/-- ADD.UNCHK: a fault on a carry out (R124). -/
def addUnchk (rd rs1 : VReg) (r : Nat) (s : State) : Answer :=
  let p := addCarry s.cfg.modulus (s.big rs1) r false
  unchkForm rd rs1 p.1 p.2 .uncheckedOverflow s

/-- ADD.UNCHK (R124). -/
def execAddUnchk (rd rs1 : VReg) (rs2 : VReg) (s : State) : Answer := addUnchk rd rs1 (bigOperand s rs2) s

/-- ADD.UNCHK.U (R124). -/
def execAddUnchkU (rd rs1 : VReg) (rs2 : SReg) (s : State) : Answer := addUnchk rd rs1 (wordOperand s rs2) s

/-- ADD.SAT: clamped to `M - 1`, no flag added (R125). -/
def addSat (rd rs1 : VReg) (r : Nat) (s : State) : Answer :=
  valueForm rd rs1 (min (s.big rs1 + r) (s.cfg.modulus - 1)) 0 s

/-- ADD.SAT (R125). -/
def execAddSat (rd rs1 : VReg) (rs2 : VReg) (s : State) : Answer := addSat rd rs1 (bigOperand s rs2) s

/-- ADD.SAT.U (R125). -/
def execAddSatU (rd rs1 : VReg) (rs2 : SReg) (s : State) : Answer := addSat rd rs1 (wordOperand s rs2) s

/-- ADD.CARRY: COND.B is the carry in and gets the carry out (R126). -/
def addWithCarry (rd rs1 : VReg) (r : Nat) (s : State) : Answer :=
  let p := addCarry s.cfg.modulus (s.big rs1) r s.cond.b
  ovfForm rd rs1 p.1 (overflowFlags p.2) p.2 s

/-- ADD.CARRY (R126). -/
def execAddCarry (rd rs1 : VReg) (rs2 : VReg) (s : State) : Answer := addWithCarry rd rs1 (bigOperand s rs2) s

/-- ADD.CARRY.U (R126). -/
def execAddCarryU (rd rs1 : VReg) (rs2 : SReg) (s : State) : Answer := addWithCarry rd rs1 (wordOperand s rs2) s

/-- SUB.WRAP: the difference modulo `M`, UNDERFLOW on a borrow out (R127). -/
def subWrap (rd rs1 : VReg) (r : Nat) (s : State) : Answer :=
  let p := subBorrow s.cfg.modulus (s.big rs1) r false
  valueForm rd rs1 p.1 (underflowFlags p.2) s

/-- SUB.WRAP (R127). -/
def execSubWrap (rd rs1 : VReg) (rs2 : VReg) (s : State) : Answer := subWrap rd rs1 (bigOperand s rs2) s

/-- SUB.WRAP.U (R127). -/
def execSubWrapU (rd rs1 : VReg) (rs2 : SReg) (s : State) : Answer := subWrap rd rs1 (wordOperand s rs2) s

/-- SUB.OVF: as WRAP, the borrow out in COND.B (R128). -/
def subOvf (rd rs1 : VReg) (r : Nat) (s : State) : Answer :=
  let p := subBorrow s.cfg.modulus (s.big rs1) r false
  ovfForm rd rs1 p.1 (underflowFlags p.2) p.2 s

/-- SUB.OVF (R128). -/
def execSubOvf (rd rs1 : VReg) (rs2 : VReg) (s : State) : Answer := subOvf rd rs1 (bigOperand s rs2) s

/-- SUB.OVF.U (R128). -/
def execSubOvfU (rd rs1 : VReg) (rs2 : SReg) (s : State) : Answer := subOvf rd rs1 (wordOperand s rs2) s

/-- SUB.CHK: None on a borrow (R129). -/
def subChk (rd rs1 : VReg) (r : Nat) (s : State) : Answer :=
  let p := subBorrow s.cfg.modulus (s.big rs1) r false
  chkForm rd rs1 p.1 p.2 s

/-- SUB.CHK (R129). -/
def execSubChk (rd rs1 : VReg) (rs2 : VReg) (s : State) : Answer := subChk rd rs1 (bigOperand s rs2) s

/-- SUB.CHK.U (R129). -/
def execSubChkU (rd rs1 : VReg) (rs2 : SReg) (s : State) : Answer := subChk rd rs1 (wordOperand s rs2) s

/-- SUB.UNCHK: a fault on a borrow (R130). -/
def subUnchk (rd rs1 : VReg) (r : Nat) (s : State) : Answer :=
  let p := subBorrow s.cfg.modulus (s.big rs1) r false
  unchkForm rd rs1 p.1 p.2 .uncheckedUnderflow s

/-- SUB.UNCHK (R130). -/
def execSubUnchk (rd rs1 : VReg) (rs2 : VReg) (s : State) : Answer := subUnchk rd rs1 (bigOperand s rs2) s

/-- SUB.UNCHK.U (R130). -/
def execSubUnchkU (rd rs1 : VReg) (rs2 : SReg) (s : State) : Answer := subUnchk rd rs1 (wordOperand s rs2) s

/-- SUB.SAT: clamped to 0 by the natural difference, no flag added (R131). -/
def subSat (rd rs1 : VReg) (r : Nat) (s : State) : Answer :=
  valueForm rd rs1 (s.big rs1 - r) 0 s

/-- SUB.SAT (R131). -/
def execSubSat (rd rs1 : VReg) (rs2 : VReg) (s : State) : Answer := subSat rd rs1 (bigOperand s rs2) s

/-- SUB.SAT.U (R131). -/
def execSubSatU (rd rs1 : VReg) (rs2 : SReg) (s : State) : Answer := subSat rd rs1 (wordOperand s rs2) s

/-- SUB.CARRY: COND.B is the borrow in and gets the borrow out (R132). -/
def subWithBorrow (rd rs1 : VReg) (r : Nat) (s : State) : Answer :=
  let p := subBorrow s.cfg.modulus (s.big rs1) r s.cond.b
  ovfForm rd rs1 p.1 (underflowFlags p.2) p.2 s

/-- SUB.CARRY (R132). -/
def execSubCarry (rd rs1 : VReg) (rs2 : VReg) (s : State) : Answer := subWithBorrow rd rs1 (bigOperand s rs2) s

/-- SUB.CARRY.U (R132). -/
def execSubCarryU (rd rs1 : VReg) (rs2 : SReg) (s : State) : Answer := subWithBorrow rd rs1 (wordOperand s rs2) s

end Sys2Proof.Machine
end

