-- ==== Sys2Proof/Machine/BitByte.lean ====
section
/-! DEFINITION. Logic, shifts, rotates, bit reversal and byte order (47_bitbyte.md). -/

namespace Sys2Proof.Machine

/-- AND (R241). -/
def execBitAnd (rd rs1 rs2 : VReg) (s : State) : Answer := valueForm rd rs1 (s.big rs1 &&& bigOperand s rs2) 0 s

/-- OR (R242). -/
def execBitOr (rd rs1 rs2 : VReg) (s : State) : Answer := valueForm rd rs1 (s.big rs1 ||| bigOperand s rs2) 0 s

/-- XOR (R243). -/
def execBitXor (rd rs1 rs2 : VReg) (s : State) : Answer := valueForm rd rs1 (s.big rs1 ^^^ bigOperand s rs2) 0 s

/-- NOT: `M - 1 - a` (R244). -/
def execBitNot (rd rs1 : VReg) (s : State) : Answer := valueForm rd rs1 (s.cfg.modulus - 1 - s.big rs1) 0 s

/-- SHL: OVERFLOW iff a 1-bit is shifted out (R250). -/
def execShl (rd rs1 : VReg) (rs2 : SReg) (s : State) : Answer :=
  let p := shiftLeft s.cfg.totalBits (s.big rs1) (scalarOperand s rs2)
  valueForm rd rs1 p.1 (overflowFlags p.2) s

/-- SHR: UNDERFLOW iff a 1-bit falls off (R251). -/
def execShr (rd rs1 : VReg) (rs2 : SReg) (s : State) : Answer :=
  let p := shiftRight s.cfg.totalBits (s.big rs1) (scalarOperand s rs2)
  valueForm rd rs1 p.1 (underflowFlags p.2) s

/-- ROTL (R252). -/
def execRotl (rd rs1 : VReg) (rs2 : SReg) (s : State) : Answer :=
  valueForm rd rs1 (rotateLeft s.cfg.totalBits (s.big rs1) (scalarOperand s rs2)) 0 s

/-- ROTR (R253). -/
def execRotr (rd rs1 : VReg) (rs2 : SReg) (s : State) : Answer :=
  valueForm rd rs1 (rotateRight s.cfg.totalBits (s.big rs1) (scalarOperand s rs2)) 0 s

/-- REVBITS (R260). -/
def execRevbits (rd rs1 : VReg) (s : State) : Answer :=
  valueForm rd rs1 (reverseBits s.cfg.totalBits (s.big rs1)) 0 s

/-- The value with all its `T / 8` bytes in reverse order (R261). -/
def swapped (s : State) (rs1 : VReg) : Nat := swapBytes (s.cfg.totalBits / 8) (s.big rs1)

/-- BSWAP (R261). -/
def execBswap (rd rs1 : VReg) (s : State) : Answer := valueForm rd rs1 (swapped s rs1) 0 s

/-- TOBE: a copy on a big-endian host, a byte swap on a little-endian one (R262). -/
def execTobe (rd rs1 : VReg) (s : State) : Answer :=
  valueForm rd rs1 (if s.cfg.hostBigEndian then s.big rs1 else swapped s rs1) 0 s

/-- TOLE: a byte swap on a big-endian host, a copy on a little-endian one (R263). -/
def execTole (rd rs1 : VReg) (s : State) : Answer :=
  valueForm rd rs1 (if s.cfg.hostBigEndian then swapped s rs1 else s.big rs1) 0 s

end Sys2Proof.Machine
end

