-- ==== Sys2Proof/Machine/Construct.lean ====
section
/-! DEFINITION. The constructors and VMOV (40_construct.md). -/

namespace Sys2Proof.Machine

/-- VZERO (R101). -/
def execVzero (rd : VReg) (s : State) : Answer := freshForm rd 0 s

/-- VONE (R102). -/
def execVone (rd : VReg) (s : State) : Answer := freshForm rd 1 s

/-- VMAX (R103). -/
def execVmax (rd : VReg) (s : State) : Answer := freshForm rd (s.cfg.modulus - 1) s

/-- VFROMU: all `SW` bits of the scalar (R104). -/
def execVfromu (rd : VReg) (rs2 : SReg) (s : State) : Answer := freshForm rd (scalarOperand s rs2) s

/-- VMOV: the value and its flags (R105). -/
def execVmov (rd rs1 : VReg) (s : State) : Answer := valueForm rd rs1 (s.big rs1) 0 s

end Sys2Proof.Machine
end

