-- ==== Sys2Proof/Machine/Count.lean ====
section
/-! DEFINITION. The count commands (48_count.md). -/

namespace Sys2Proof.Machine

/-- POPCNT (R271). -/
def execPopcnt (rd : SReg) (rs1 : VReg) (s : State) : Answer := scalarForm rd (popCount s.cfg.totalBits (s.big rs1)) s

/-- CLZ (R272). -/
def execClz (rd : SReg) (rs1 : VReg) (s : State) : Answer := scalarForm rd (leadingZeros s.cfg.totalBits (s.big rs1)) s

/-- CTZ (R273). -/
def execCtz (rd : SReg) (rs1 : VReg) (s : State) : Answer := scalarForm rd (trailingZeros s.cfg.totalBits (s.big rs1)) s

/-- CLZW (R274). -/
def execClzw (rd : SReg) (rs1 : VReg) (s : State) : Answer :=
  scalarForm rd (leadingZeroWords s.cfg.wordBits s.cfg.words (s.big rs1)) s

/-- CTZW (R275). -/
def execCtzw (rd : SReg) (rs1 : VReg) (s : State) : Answer :=
  scalarForm rd (trailingZeroWords s.cfg.wordBits s.cfg.words (s.big rs1)) s

end Sys2Proof.Machine
end

