-- ==== Sys2Proof/Machine/Divide.lean ====
section
/-! DEFINITION. The long-division unit (43_divide.md). -/

namespace Sys2Proof.Machine

/-- DIVFULL: quotient to RD, remainder to RD2 (R162). -/
def divideFully (rd rd2 rs1 : VReg) (r : Nat) (s : State) : Answer :=
  let d := divFull s.cfg.modulus (s.big rs1) r
  pairForm rd rd2 rs1 d.quot d.quotNew d.rem d.remNew s

/-- DIVFULL (R162). -/
def execDivfull (rd rd2 rs1 : VReg) (rs2 : VReg) (s : State) : Answer :=
  divideFully rd rd2 rs1 (bigOperand s rs2) s

/-- DIVFULL.U (R162). -/
def execDivfullU (rd rd2 rs1 : VReg) (rs2 : SReg) (s : State) : Answer :=
  divideFully rd rd2 rs1 (wordOperand s rs2) s

/-- DIV.WRAP: the quotient, or the sentinel with its flags (R163). -/
def divWrap (rd rs1 : VReg) (r : Nat) (s : State) : Answer :=
  let d := divFull s.cfg.modulus (s.big rs1) r
  valueForm rd rs1 d.quot d.quotNew s

/-- DIV.WRAP (R163). -/
def execDivWrap (rd rs1 : VReg) (rs2 : VReg) (s : State) : Answer := divWrap rd rs1 (bigOperand s rs2) s

/-- DIV.WRAP.U (R163). -/
def execDivWrapU (rd rs1 : VReg) (rs2 : SReg) (s : State) : Answer := divWrap rd rs1 (wordOperand s rs2) s

/-- DIV.OVF: as WRAP, COND.B tells a zero divisor (R164). -/
def divOvf (rd rs1 : VReg) (r : Nat) (s : State) : Answer :=
  let d := divFull s.cfg.modulus (s.big rs1) r
  ovfForm rd rs1 d.quot d.quotNew (r == 0) s

/-- DIV.OVF (R164). -/
def execDivOvf (rd rs1 : VReg) (rs2 : VReg) (s : State) : Answer := divOvf rd rs1 (bigOperand s rs2) s

/-- DIV.OVF.U (R164). -/
def execDivOvfU (rd rs1 : VReg) (rs2 : SReg) (s : State) : Answer := divOvf rd rs1 (wordOperand s rs2) s

/-- DIV.CHK: None on a zero divisor (R165). -/
def divChk (rd rs1 : VReg) (r : Nat) (s : State) : Answer :=
  let d := divFull s.cfg.modulus (s.big rs1) r
  chkForm rd rs1 d.quot (r == 0) s

/-- DIV.CHK (R165). -/
def execDivChk (rd rs1 : VReg) (rs2 : VReg) (s : State) : Answer := divChk rd rs1 (bigOperand s rs2) s

/-- DIV.CHK.U (R165). -/
def execDivChkU (rd rs1 : VReg) (rs2 : SReg) (s : State) : Answer := divChk rd rs1 (wordOperand s rs2) s

/-- DIV.UNCHK: a fault on a zero divisor (R166). -/
def divUnchk (rd rs1 : VReg) (r : Nat) (s : State) : Answer :=
  let d := divFull s.cfg.modulus (s.big rs1) r
  unchkForm rd rs1 d.quot (r == 0) .uncheckedDivzero s

/-- DIV.UNCHK (R166). -/
def execDivUnchk (rd rs1 : VReg) (rs2 : VReg) (s : State) : Answer := divUnchk rd rs1 (bigOperand s rs2) s

/-- DIV.UNCHK.U (R166). -/
def execDivUnchkU (rd rs1 : VReg) (rs2 : SReg) (s : State) : Answer := divUnchk rd rs1 (wordOperand s rs2) s

/-- DIV.SAT: the sentinel is kept and DIVIDED_BY_ZERO alone added (R167, 90_conflicts.md C2). -/
def divSat (rd rs1 : VReg) (r : Nat) (s : State) : Answer :=
  let d := divFull s.cfg.modulus (s.big rs1) r
  valueForm rd rs1 d.quot (flagsWhen (r == 0) flagD) s

/-- DIV.SAT (R167). -/
def execDivSat (rd rs1 : VReg) (rs2 : VReg) (s : State) : Answer := divSat rd rs1 (bigOperand s rs2) s

/-- DIV.SAT.U (R167). -/
def execDivSatU (rd rs1 : VReg) (rs2 : SReg) (s : State) : Answer := divSat rd rs1 (wordOperand s rs2) s

/-- REM.WRAP: the remainder, or 0 with DIVIDED_BY_ZERO (R168). -/
def remWrap (rd rs1 : VReg) (r : Nat) (s : State) : Answer :=
  let d := divFull s.cfg.modulus (s.big rs1) r
  valueForm rd rs1 d.rem d.remNew s

/-- REM.WRAP (R168). -/
def execRemWrap (rd rs1 : VReg) (rs2 : VReg) (s : State) : Answer := remWrap rd rs1 (bigOperand s rs2) s

/-- REM.WRAP.U (R168). -/
def execRemWrapU (rd rs1 : VReg) (rs2 : SReg) (s : State) : Answer := remWrap rd rs1 (wordOperand s rs2) s

/-- REM.OVF: as WRAP, COND.B tells a zero divisor (R169). -/
def remOvf (rd rs1 : VReg) (r : Nat) (s : State) : Answer :=
  let d := divFull s.cfg.modulus (s.big rs1) r
  ovfForm rd rs1 d.rem d.remNew (r == 0) s

/-- REM.OVF (R169). -/
def execRemOvf (rd rs1 : VReg) (rs2 : VReg) (s : State) : Answer := remOvf rd rs1 (bigOperand s rs2) s

/-- REM.OVF.U (R169). -/
def execRemOvfU (rd rs1 : VReg) (rs2 : SReg) (s : State) : Answer := remOvf rd rs1 (wordOperand s rs2) s

/-- REM.CHK: None on a zero divisor (R170). -/
def remChk (rd rs1 : VReg) (r : Nat) (s : State) : Answer :=
  let d := divFull s.cfg.modulus (s.big rs1) r
  chkForm rd rs1 d.rem (r == 0) s

/-- REM.CHK (R170). -/
def execRemChk (rd rs1 : VReg) (rs2 : VReg) (s : State) : Answer := remChk rd rs1 (bigOperand s rs2) s

/-- REM.CHK.U (R170). -/
def execRemChkU (rd rs1 : VReg) (rs2 : SReg) (s : State) : Answer := remChk rd rs1 (wordOperand s rs2) s

/-- REM.UNCHK: a fault on a zero divisor (R171). -/
def remUnchk (rd rs1 : VReg) (r : Nat) (s : State) : Answer :=
  let d := divFull s.cfg.modulus (s.big rs1) r
  unchkForm rd rs1 d.rem (r == 0) .uncheckedDivzero s

/-- REM.UNCHK (R171). -/
def execRemUnchk (rd rs1 : VReg) (rs2 : VReg) (s : State) : Answer := remUnchk rd rs1 (bigOperand s rs2) s

/-- REM.UNCHK.U (R171). -/
def execRemUnchkU (rd rs1 : VReg) (rs2 : SReg) (s : State) : Answer := remUnchk rd rs1 (wordOperand s rs2) s

/-- REM.SAT: the remainder sentinel carries DIVIDED_BY_ZERO only (R172). -/
def remSat (rd rs1 : VReg) (r : Nat) (s : State) : Answer :=
  let d := divFull s.cfg.modulus (s.big rs1) r
  valueForm rd rs1 d.rem d.remNew s

/-- REM.SAT (R172). -/
def execRemSat (rd rs1 : VReg) (rs2 : VReg) (s : State) : Answer := remSat rd rs1 (bigOperand s rs2) s

/-- REM.SAT.U (R172). -/
def execRemSatU (rd rs1 : VReg) (rs2 : SReg) (s : State) : Answer := remSat rd rs1 (wordOperand s rs2) s

end Sys2Proof.Machine
end

