-- ==== Sys2Proof/Machine/FlagAccess.lean ====
section
/-! DEFINITION. The flag and COND access commands (49_flags.md). -/

namespace Sys2Proof.Machine

/-- FGET: the four flags, zero-extended (R291). -/
def execFget (rd : SReg) (rs1 : VReg) (s : State) : Answer := scalarForm rd (s.bigFlags rs1).toNat s

/-- FCLR: the one command that clears flags (R292, R290). -/
def execFclr (rd : VReg) (imm : Imm4) (s : State) : Answer := complete (s.setFlags rd (s.bigFlags rd &&& ~~~imm))

/-- FSET (R293). -/
def execFset (rd : VReg) (imm : Imm4) (s : State) : Answer := complete (s.setFlags rd (s.bigFlags rd ||| imm))

/-- FTEST: COND.B tells whether a masked flag is set (R294). -/
def execFtest (rs1 : VReg) (imm : Imm4) (s : State) : Answer := complete (s.setB (s.bigFlags rs1 &&& imm != 0))

/-- CONDW: COND from the two low bits of the immediate; a high bit set is ILLEGAL_FORM (R295, R76, log entry 8). -/
def execCondw (imm : Imm4) (s : State) : Answer :=
  if imm.toNat < 4 then complete ((s.setB (imm.getLsbD 0)).setNone (imm.getLsbD 1)) else raise .illegalForm s

end Sys2Proof.Machine
end

