-- ==== Sys2Proof/Machine/Modular.lean ====
section
/-! DEFINITION. The modular commands and GCD (44_modular.md). -/

namespace Sys2Proof.Machine

/-- The prologue of R180: a zero modulus `m` gives the all-ones sentinel; else the result `x` with the flags `new`. -/
def modularForm (rd rs1 : VReg) (m x : Nat) (new : FlagField) (s : State) : Answer :=
  if m = 0 then valueForm rd rs1 (s.cfg.modulus - 1) quotientFlags s else valueForm rd rs1 x new s

/-- MADD (R181). -/
def execMadd (rd rs1 rs2 rs3 : VReg) (s : State) : Answer :=
  let m := s.big rs3
  modularForm rd rs1 m ((s.big rs1 % m + s.big rs2 % m) % m) 0 s

/-- MSUB (R182). -/
def execMsub (rd rs1 rs2 rs3 : VReg) (s : State) : Answer :=
  let m := s.big rs3
  let a' := s.big rs1 % m
  let r' := s.big rs2 % m
  modularForm rd rs1 m (if r' ≤ a' then a' - r' else a' + m - r') 0 s

/-- MMUL: the exact product, reduced (R183). -/
def execMmul (rd rs1 rs2 rs3 : VReg) (s : State) : Answer :=
  let m := s.big rs3
  modularForm rd rs1 m (s.big rs1 % m * (s.big rs2 % m) % m) 0 s

/-- MDIV: the quotient of the reduced operands; a zero reduced divisor gives the sentinel (R184). -/
def execMdiv (rd rs1 rs2 rs3 : VReg) (s : State) : Answer :=
  let m := s.big rs3
  let d := divFull s.cfg.modulus (s.big rs1 % m) (s.big rs2 % m)
  modularForm rd rs1 m d.quot d.quotNew s

/-- MREM: the remainder of the reduced operands; a zero reduced divisor gives 0 with DIVIDED_BY_ZERO (R185). -/
def execMrem (rd rs1 rs2 rs3 : VReg) (s : State) : Answer :=
  let m := s.big rs3
  let d := divFull s.cfg.modulus (s.big rs1 % m) (s.big rs2 % m)
  modularForm rd rs1 m d.rem d.remNew s

/-- MPOW: the base is reduced, the exponent is not (R186). -/
def execMpow (rd rs1 rs2 rs3 : VReg) (s : State) : Answer :=
  let m := s.big rs3
  modularForm rd rs1 m (powMod m (s.big rs1 % m) (s.big rs2)) 0 s

/-- GCD: a fault if either operand is zero (R187). -/
def execGcd (rd rs1 rs2 : VReg) (s : State) : Answer :=
  unchkForm rd rs1 (Nat.gcd (s.big rs1) (s.big rs2)) (s.big rs1 == 0 || s.big rs2 == 0) .gcdZero s

end Sys2Proof.Machine
end

