-- ==== Sys2Proof/Machine/Multiply.lean ====
section
/-! DEFINITION. The multiplier (42_multiply.md). -/

namespace Sys2Proof.Machine

/-- MUL.WRAP: the low half, OVERFLOW iff the high half is not zero (R143). -/
def mulWrap (rd rs1 : VReg) (r : Nat) (s : State) : Answer :=
  let p := mulFull s.cfg.modulus (s.big rs1) r 0
  valueForm rd rs1 p.1 (overflowFlags (p.2 != 0)) s

/-- MUL.WRAP (R143). -/
def execMulWrap (rd rs1 : VReg) (rs2 : VReg) (s : State) : Answer := mulWrap rd rs1 (bigOperand s rs2) s

/-- MUL.WRAP.U (R143). -/
def execMulWrapU (rd rs1 : VReg) (rs2 : SReg) (s : State) : Answer := mulWrap rd rs1 (wordOperand s rs2) s

/-- MUL.OVF: as WRAP, the condition in COND.B (R144). -/
def mulOvf (rd rs1 : VReg) (r : Nat) (s : State) : Answer :=
  let p := mulFull s.cfg.modulus (s.big rs1) r 0
  ovfForm rd rs1 p.1 (overflowFlags (p.2 != 0)) (p.2 != 0) s

/-- MUL.OVF (R144). -/
def execMulOvf (rd rs1 : VReg) (rs2 : VReg) (s : State) : Answer := mulOvf rd rs1 (bigOperand s rs2) s

/-- MUL.OVF.U (R144). -/
def execMulOvfU (rd rs1 : VReg) (rs2 : SReg) (s : State) : Answer := mulOvf rd rs1 (wordOperand s rs2) s

/-- MUL.CHK: None if the high half is not zero (R145). -/
def mulChk (rd rs1 : VReg) (r : Nat) (s : State) : Answer :=
  let p := mulFull s.cfg.modulus (s.big rs1) r 0
  chkForm rd rs1 p.1 (p.2 != 0) s

/-- MUL.CHK (R145). -/
def execMulChk (rd rs1 : VReg) (rs2 : VReg) (s : State) : Answer := mulChk rd rs1 (bigOperand s rs2) s

/-- MUL.CHK.U (R145). -/
def execMulChkU (rd rs1 : VReg) (rs2 : SReg) (s : State) : Answer := mulChk rd rs1 (wordOperand s rs2) s

/-- MUL.UNCHK: a fault if the high half is not zero (R146). -/
def mulUnchk (rd rs1 : VReg) (r : Nat) (s : State) : Answer :=
  let p := mulFull s.cfg.modulus (s.big rs1) r 0
  unchkForm rd rs1 p.1 (p.2 != 0) .uncheckedOverflow s

/-- MUL.UNCHK (R146). -/
def execMulUnchk (rd rs1 : VReg) (rs2 : VReg) (s : State) : Answer := mulUnchk rd rs1 (bigOperand s rs2) s

/-- MUL.UNCHK.U (R146). -/
def execMulUnchkU (rd rs1 : VReg) (rs2 : SReg) (s : State) : Answer := mulUnchk rd rs1 (wordOperand s rs2) s

/-- MUL.SAT: `M - 1` if the high half is not zero, no flag added (R147). -/
def mulSat (rd rs1 : VReg) (r : Nat) (s : State) : Answer :=
  let p := mulFull s.cfg.modulus (s.big rs1) r 0
  valueForm rd rs1 (if p.2 = 0 then p.1 else s.cfg.modulus - 1) 0 s

/-- MUL.SAT (R147). -/
def execMulSat (rd rs1 : VReg) (rs2 : VReg) (s : State) : Answer := mulSat rd rs1 (bigOperand s rs2) s

/-- MUL.SAT.U (R147). -/
def execMulSatU (rd rs1 : VReg) (rs2 : SReg) (s : State) : Answer := mulSat rd rs1 (wordOperand s rs2) s

/-- The two halves of `a * r + c`, both inheriting the flags of RS1, no flag added (R148, R149). -/
def mulPair (rd rd2 rs1 : VReg) (r c : Nat) (s : State) : Answer :=
  let p := mulFull s.cfg.modulus (s.big rs1) r c
  pairForm rd rd2 rs1 p.1 0 p.2 0 s

/-- MUL.WIDE (R148). -/
def execMulWide (rd rd2 rs1 : VReg) (rs2 : VReg) (s : State) : Answer :=
  mulPair rd rd2 rs1 (bigOperand s rs2) 0 s

/-- MUL.WIDE.U (R148). -/
def execMulWideU (rd rd2 rs1 : VReg) (rs2 : SReg) (s : State) : Answer :=
  mulPair rd rd2 rs1 (wordOperand s rs2) 0 s

/-- MUL.CARRY (R149). -/
def execMulCarry (rd rd2 rs1 : VReg) (rs2 : VReg) (rs3 : VReg) (s : State) : Answer :=
  mulPair rd rd2 rs1 (bigOperand s rs2) (s.big rs3) s

/-- MUL.CARRY.U (R149). -/
def execMulCarryU (rd rd2 rs1 : VReg) (rs2 : SReg) (rs3 : VReg) (s : State) : Answer :=
  mulPair rd rd2 rs1 (wordOperand s rs2) (s.big rs3) s

end Sys2Proof.Machine
end

