-- ==== Sys2Proof/Machine/PowRoot.lean ====
section
/-! DEFINITION. Powers and integer roots (45_pow_root.md). -/

namespace Sys2Proof.Machine

/-- POW.WRAP: the power modulo `M`, OVERFLOW iff it is not below `M` (R202). -/
def powWrap (rd rs1 : VReg) (r : Nat) (s : State) : Answer :=
  let p := powOverflow s.cfg.modulus (s.big rs1) r
  valueForm rd rs1 p.1 (overflowFlags p.2) s

/-- POW.WRAP (R202). -/
def execPowWrap (rd rs1 : VReg) (rs2 : VReg) (s : State) : Answer := powWrap rd rs1 (bigOperand s rs2) s

/-- POW.WRAP.U (R202). -/
def execPowWrapU (rd rs1 : VReg) (rs2 : SReg) (s : State) : Answer := powWrap rd rs1 (wordOperand s rs2) s

/-- POW.OVF: as WRAP, the condition in COND.B (R203). -/
def powOvf (rd rs1 : VReg) (r : Nat) (s : State) : Answer :=
  let p := powOverflow s.cfg.modulus (s.big rs1) r
  ovfForm rd rs1 p.1 (overflowFlags p.2) p.2 s

/-- POW.OVF (R203). -/
def execPowOvf (rd rs1 : VReg) (rs2 : VReg) (s : State) : Answer := powOvf rd rs1 (bigOperand s rs2) s

/-- POW.OVF.U (R203). -/
def execPowOvfU (rd rs1 : VReg) (rs2 : SReg) (s : State) : Answer := powOvf rd rs1 (wordOperand s rs2) s

/-- POW.CHK: None on overflow (R204). -/
def powChk (rd rs1 : VReg) (r : Nat) (s : State) : Answer :=
  let p := powOverflow s.cfg.modulus (s.big rs1) r
  chkForm rd rs1 p.1 p.2 s

/-- POW.CHK (R204). -/
def execPowChk (rd rs1 : VReg) (rs2 : VReg) (s : State) : Answer := powChk rd rs1 (bigOperand s rs2) s

/-- POW.CHK.U (R204). -/
def execPowChkU (rd rs1 : VReg) (rs2 : SReg) (s : State) : Answer := powChk rd rs1 (wordOperand s rs2) s

/-- POW.UNCHK: a fault on overflow (R205). -/
def powUnchk (rd rs1 : VReg) (r : Nat) (s : State) : Answer :=
  let p := powOverflow s.cfg.modulus (s.big rs1) r
  unchkForm rd rs1 p.1 p.2 .uncheckedOverflow s

/-- POW.UNCHK (R205). -/
def execPowUnchk (rd rs1 : VReg) (rs2 : VReg) (s : State) : Answer := powUnchk rd rs1 (bigOperand s rs2) s

/-- POW.UNCHK.U (R205). -/
def execPowUnchkU (rd rs1 : VReg) (rs2 : SReg) (s : State) : Answer := powUnchk rd rs1 (wordOperand s rs2) s

/-- POW.SAT: `M - 1` on overflow, no flag added (R206). -/
def powSat (rd rs1 : VReg) (r : Nat) (s : State) : Answer :=
  let p := powOverflow s.cfg.modulus (s.big rs1) r
  valueForm rd rs1 (if p.2 then s.cfg.modulus - 1 else p.1) 0 s

/-- POW.SAT (R206). -/
def execPowSat (rd rs1 : VReg) (rs2 : VReg) (s : State) : Answer := powSat rd rs1 (bigOperand s rs2) s

/-- POW.SAT.U (R206). -/
def execPowSatU (rd rs1 : VReg) (rs2 : SReg) (s : State) : Answer := powSat rd rs1 (wordOperand s rs2) s

/-- ROOT: the floor root of degree `r`; degree 0 is a fault (R207). -/
def integerRoot (rd rs1 : VReg) (r : Nat) (s : State) : Answer :=
  unchkForm rd rs1 (iroot s.cfg.modulus (s.big rs1) r) (r == 0) .rootZeroExp s

/-- ROOT (R207). -/
def execRoot (rd rs1 : VReg) (rs2 : VReg) (s : State) : Answer := integerRoot rd rs1 (bigOperand s rs2) s

/-- ROOT.U (R207). -/
def execRootU (rd rs1 : VReg) (rs2 : SReg) (s : State) : Answer := integerRoot rd rs1 (wordOperand s rs2) s

/-- SQRT: the floor square root (R209). -/
def execSqrt (rd rs1 : VReg) (s : State) : Answer := valueForm rd rs1 (iroot s.cfg.modulus (s.big rs1) 2) 0 s

end Sys2Proof.Machine
end

