-- ==== Sys2Proof/Machine/Primality.lean ====
section
/-! DEFINITION. The primality test (46_primality.md). -/

namespace Sys2Proof.Machine

/-- ISPRIME: the verdict of R221 in COND.B, no register written (R222). -/
def execIsprime (rs1 : VReg) (rs2 : SReg) (s : State) : Answer :=
  complete (s.setB (isPrime (s.big rs1) (scalarOperand s rs2)))

end Sys2Proof.Machine
end

