-- ==== Sys2Proof/Machine/Dispatch.lean ====
section
/-! DEFINITION. Dispatch: one arm per command, each one direct call of its meaning. -/

namespace Sys2Proof.Machine

def exec (i : Instr) (s : State) : Host.Outcome State Fault Refusal :=
  match i with
  | .vzero rd => Sys2Proof.Machine.execVzero rd s
  | .vone rd => Sys2Proof.Machine.execVone rd s
  | .vmax rd => Sys2Proof.Machine.execVmax rd s
  | .vfromu rd rs2 => Sys2Proof.Machine.execVfromu rd rs2 s
  | .vmov rd rs1 => Sys2Proof.Machine.execVmov rd rs1 s
  | .addWrap rd rs1 rs2 => Sys2Proof.Machine.execAddWrap rd rs1 rs2 s
  | .addWrapU rd rs1 rs2 => Sys2Proof.Machine.execAddWrapU rd rs1 rs2 s
  | .addOvf rd rs1 rs2 => Sys2Proof.Machine.execAddOvf rd rs1 rs2 s
  | .addOvfU rd rs1 rs2 => Sys2Proof.Machine.execAddOvfU rd rs1 rs2 s
  | .addChk rd rs1 rs2 => Sys2Proof.Machine.execAddChk rd rs1 rs2 s
  | .addChkU rd rs1 rs2 => Sys2Proof.Machine.execAddChkU rd rs1 rs2 s
  | .addUnchk rd rs1 rs2 => Sys2Proof.Machine.execAddUnchk rd rs1 rs2 s
  | .addUnchkU rd rs1 rs2 => Sys2Proof.Machine.execAddUnchkU rd rs1 rs2 s
  | .addSat rd rs1 rs2 => Sys2Proof.Machine.execAddSat rd rs1 rs2 s
  | .addSatU rd rs1 rs2 => Sys2Proof.Machine.execAddSatU rd rs1 rs2 s
  | .addCarry rd rs1 rs2 => Sys2Proof.Machine.execAddCarry rd rs1 rs2 s
  | .addCarryU rd rs1 rs2 => Sys2Proof.Machine.execAddCarryU rd rs1 rs2 s
  | .subWrap rd rs1 rs2 => Sys2Proof.Machine.execSubWrap rd rs1 rs2 s
  | .subWrapU rd rs1 rs2 => Sys2Proof.Machine.execSubWrapU rd rs1 rs2 s
  | .subOvf rd rs1 rs2 => Sys2Proof.Machine.execSubOvf rd rs1 rs2 s
  | .subOvfU rd rs1 rs2 => Sys2Proof.Machine.execSubOvfU rd rs1 rs2 s
  | .subChk rd rs1 rs2 => Sys2Proof.Machine.execSubChk rd rs1 rs2 s
  | .subChkU rd rs1 rs2 => Sys2Proof.Machine.execSubChkU rd rs1 rs2 s
  | .subUnchk rd rs1 rs2 => Sys2Proof.Machine.execSubUnchk rd rs1 rs2 s
  | .subUnchkU rd rs1 rs2 => Sys2Proof.Machine.execSubUnchkU rd rs1 rs2 s
  | .subSat rd rs1 rs2 => Sys2Proof.Machine.execSubSat rd rs1 rs2 s
  | .subSatU rd rs1 rs2 => Sys2Proof.Machine.execSubSatU rd rs1 rs2 s
  | .subCarry rd rs1 rs2 => Sys2Proof.Machine.execSubCarry rd rs1 rs2 s
  | .subCarryU rd rs1 rs2 => Sys2Proof.Machine.execSubCarryU rd rs1 rs2 s
  | .mulWrap rd rs1 rs2 => Sys2Proof.Machine.execMulWrap rd rs1 rs2 s
  | .mulWrapU rd rs1 rs2 => Sys2Proof.Machine.execMulWrapU rd rs1 rs2 s
  | .mulOvf rd rs1 rs2 => Sys2Proof.Machine.execMulOvf rd rs1 rs2 s
  | .mulOvfU rd rs1 rs2 => Sys2Proof.Machine.execMulOvfU rd rs1 rs2 s
  | .mulChk rd rs1 rs2 => Sys2Proof.Machine.execMulChk rd rs1 rs2 s
  | .mulChkU rd rs1 rs2 => Sys2Proof.Machine.execMulChkU rd rs1 rs2 s
  | .mulUnchk rd rs1 rs2 => Sys2Proof.Machine.execMulUnchk rd rs1 rs2 s
  | .mulUnchkU rd rs1 rs2 => Sys2Proof.Machine.execMulUnchkU rd rs1 rs2 s
  | .mulSat rd rs1 rs2 => Sys2Proof.Machine.execMulSat rd rs1 rs2 s
  | .mulSatU rd rs1 rs2 => Sys2Proof.Machine.execMulSatU rd rs1 rs2 s
  | .mulWide rd rd2 rs1 rs2 => Sys2Proof.Machine.execMulWide rd rd2 rs1 rs2 s
  | .mulWideU rd rd2 rs1 rs2 => Sys2Proof.Machine.execMulWideU rd rd2 rs1 rs2 s
  | .mulCarry rd rd2 rs1 rs2 rs3 => Sys2Proof.Machine.execMulCarry rd rd2 rs1 rs2 rs3 s
  | .mulCarryU rd rd2 rs1 rs2 rs3 => Sys2Proof.Machine.execMulCarryU rd rd2 rs1 rs2 rs3 s
  | .divfull rd rd2 rs1 rs2 => Sys2Proof.Machine.execDivfull rd rd2 rs1 rs2 s
  | .divfullU rd rd2 rs1 rs2 => Sys2Proof.Machine.execDivfullU rd rd2 rs1 rs2 s
  | .divWrap rd rs1 rs2 => Sys2Proof.Machine.execDivWrap rd rs1 rs2 s
  | .divWrapU rd rs1 rs2 => Sys2Proof.Machine.execDivWrapU rd rs1 rs2 s
  | .divOvf rd rs1 rs2 => Sys2Proof.Machine.execDivOvf rd rs1 rs2 s
  | .divOvfU rd rs1 rs2 => Sys2Proof.Machine.execDivOvfU rd rs1 rs2 s
  | .divChk rd rs1 rs2 => Sys2Proof.Machine.execDivChk rd rs1 rs2 s
  | .divChkU rd rs1 rs2 => Sys2Proof.Machine.execDivChkU rd rs1 rs2 s
  | .divUnchk rd rs1 rs2 => Sys2Proof.Machine.execDivUnchk rd rs1 rs2 s
  | .divUnchkU rd rs1 rs2 => Sys2Proof.Machine.execDivUnchkU rd rs1 rs2 s
  | .divSat rd rs1 rs2 => Sys2Proof.Machine.execDivSat rd rs1 rs2 s
  | .divSatU rd rs1 rs2 => Sys2Proof.Machine.execDivSatU rd rs1 rs2 s
  | .remWrap rd rs1 rs2 => Sys2Proof.Machine.execRemWrap rd rs1 rs2 s
  | .remWrapU rd rs1 rs2 => Sys2Proof.Machine.execRemWrapU rd rs1 rs2 s
  | .remOvf rd rs1 rs2 => Sys2Proof.Machine.execRemOvf rd rs1 rs2 s
  | .remOvfU rd rs1 rs2 => Sys2Proof.Machine.execRemOvfU rd rs1 rs2 s
  | .remChk rd rs1 rs2 => Sys2Proof.Machine.execRemChk rd rs1 rs2 s
  | .remChkU rd rs1 rs2 => Sys2Proof.Machine.execRemChkU rd rs1 rs2 s
  | .remUnchk rd rs1 rs2 => Sys2Proof.Machine.execRemUnchk rd rs1 rs2 s
  | .remUnchkU rd rs1 rs2 => Sys2Proof.Machine.execRemUnchkU rd rs1 rs2 s
  | .remSat rd rs1 rs2 => Sys2Proof.Machine.execRemSat rd rs1 rs2 s
  | .remSatU rd rs1 rs2 => Sys2Proof.Machine.execRemSatU rd rs1 rs2 s
  | .madd rd rs1 rs2 rs3 => Sys2Proof.Machine.execMadd rd rs1 rs2 rs3 s
  | .msub rd rs1 rs2 rs3 => Sys2Proof.Machine.execMsub rd rs1 rs2 rs3 s
  | .mmul rd rs1 rs2 rs3 => Sys2Proof.Machine.execMmul rd rs1 rs2 rs3 s
  | .mdiv rd rs1 rs2 rs3 => Sys2Proof.Machine.execMdiv rd rs1 rs2 rs3 s
  | .mrem rd rs1 rs2 rs3 => Sys2Proof.Machine.execMrem rd rs1 rs2 rs3 s
  | .mpow rd rs1 rs2 rs3 => Sys2Proof.Machine.execMpow rd rs1 rs2 rs3 s
  | .gcd rd rs1 rs2 => Sys2Proof.Machine.execGcd rd rs1 rs2 s
  | .powWrap rd rs1 rs2 => Sys2Proof.Machine.execPowWrap rd rs1 rs2 s
  | .powWrapU rd rs1 rs2 => Sys2Proof.Machine.execPowWrapU rd rs1 rs2 s
  | .powOvf rd rs1 rs2 => Sys2Proof.Machine.execPowOvf rd rs1 rs2 s
  | .powOvfU rd rs1 rs2 => Sys2Proof.Machine.execPowOvfU rd rs1 rs2 s
  | .powChk rd rs1 rs2 => Sys2Proof.Machine.execPowChk rd rs1 rs2 s
  | .powChkU rd rs1 rs2 => Sys2Proof.Machine.execPowChkU rd rs1 rs2 s
  | .powUnchk rd rs1 rs2 => Sys2Proof.Machine.execPowUnchk rd rs1 rs2 s
  | .powUnchkU rd rs1 rs2 => Sys2Proof.Machine.execPowUnchkU rd rs1 rs2 s
  | .powSat rd rs1 rs2 => Sys2Proof.Machine.execPowSat rd rs1 rs2 s
  | .powSatU rd rs1 rs2 => Sys2Proof.Machine.execPowSatU rd rs1 rs2 s
  | .root rd rs1 rs2 => Sys2Proof.Machine.execRoot rd rs1 rs2 s
  | .rootU rd rs1 rs2 => Sys2Proof.Machine.execRootU rd rs1 rs2 s
  | .sqrt rd rs1 => Sys2Proof.Machine.execSqrt rd rs1 s
  | .isprime rs1 rs2 => Sys2Proof.Machine.execIsprime rs1 rs2 s
  | .bitAnd rd rs1 rs2 => Sys2Proof.Machine.execBitAnd rd rs1 rs2 s
  | .bitOr rd rs1 rs2 => Sys2Proof.Machine.execBitOr rd rs1 rs2 s
  | .bitXor rd rs1 rs2 => Sys2Proof.Machine.execBitXor rd rs1 rs2 s
  | .bitNot rd rs1 => Sys2Proof.Machine.execBitNot rd rs1 s
  | .shl rd rs1 rs2 => Sys2Proof.Machine.execShl rd rs1 rs2 s
  | .shr rd rs1 rs2 => Sys2Proof.Machine.execShr rd rs1 rs2 s
  | .rotl rd rs1 rs2 => Sys2Proof.Machine.execRotl rd rs1 rs2 s
  | .rotr rd rs1 rs2 => Sys2Proof.Machine.execRotr rd rs1 rs2 s
  | .revbits rd rs1 => Sys2Proof.Machine.execRevbits rd rs1 s
  | .bswap rd rs1 => Sys2Proof.Machine.execBswap rd rs1 s
  | .tobe rd rs1 => Sys2Proof.Machine.execTobe rd rs1 s
  | .tole rd rs1 => Sys2Proof.Machine.execTole rd rs1 s
  | .popcnt rd rs1 => Sys2Proof.Machine.execPopcnt rd rs1 s
  | .clz rd rs1 => Sys2Proof.Machine.execClz rd rs1 s
  | .ctz rd rs1 => Sys2Proof.Machine.execCtz rd rs1 s
  | .clzw rd rs1 => Sys2Proof.Machine.execClzw rd rs1 s
  | .ctzw rd rs1 => Sys2Proof.Machine.execCtzw rd rs1 s
  | .fget rd rs1 => Sys2Proof.Machine.execFget rd rs1 s
  | .fset rd imm => Sys2Proof.Machine.execFset rd imm s
  | .fclr rd imm => Sys2Proof.Machine.execFclr rd imm s
  | .ftest rs1 imm => Sys2Proof.Machine.execFtest rs1 imm s
  | .condw imm => Sys2Proof.Machine.execCondw imm s

end Sys2Proof.Machine
end

