-- ==== Sys2Proof/Machine/HostPort.lean ====
section
/-! DEFINITION. The host-port operations (R53): reads and writes of the register files and of the control and status
registers, with their hazards (R54, R55). -/

namespace Sys2Proof.Machine

/-- `STATUS.LOST <- 1` (R29). -/
def State.markLost (s : State) : State := { s with status := { s.status with lost := true } }

/-- A host read returns `x`. -/
def State.answer (s : State) (x : Nat) : State := { s with returned := x :: s.returned }

/-- A host read returns an unspecified value of `w` bits and sets LOST (R53, R54). DESIGN CHOICE, safe: log entry 4. -/
def State.answerUnspecified (s : State) (w : Nat) : State :=
  { (s.answer (Config.freeBits w s.draws).toNat).markLost with draws := s.draws + 1 }

/-- STATUS as a 32-bit word (R29). -/
def Status.word (st : Status) : Nat :=
  st.busy.toNat + 2 * st.fault.toNat + 4 * st.done.toNat + 8 * st.lost.toNat

/-- The cause codes (R301). -/
def Cause.code : Cause → Nat
  | .none => 0
  | .illegalOpcode => 1
  | .illegalForm => 2
  | .uncheckedOverflow => 3
  | .uncheckedUnderflow => 4
  | .uncheckedDivzero => 5
  | .gcdZero => 6
  | .rootZeroExp => 7

/-- COND as a 32-bit word (R26). -/
def Cond.word (c : Cond) : Nat := c.b.toNat + 2 * c.none.toNat

/-- IE as a 32-bit word (R32). -/
def IntEnable.word (e : IntEnable) : Nat := e.doneIE.toNat + 2 * e.faultIE.toNat

/-- CONFIG: WBITS in bits 7:0, NWORDS in 23:8, BIGEND in 24 (R33). -/
def configWord (c : Config) : Nat := c.wordBits % 256 + 256 * c.words + 2 ^ 24 * c.hostBigEndian.toNat

/-- Bit `n` of a value the host writes. -/
def hostBit (x n : Nat) : Bool := x / 2 ^ n % 2 == 1

/-- STATUS is write-1-to-clear in DONE and LOST (R29). -/
def writeStatus (x : Nat) (s : State) : State :=
  { s with status :=
    { s.status with done := s.status.done && !hostBit x 2, lost := s.status.lost && !hostBit x 3 } }

/-- CTRL: SRESET subsumes FACK (R35). -/
def writeCtrl (x : Nat) (s : State) : State :=
  if hostBit x 1 then softReset s else if hostBit x 0 then acknowledge s else s

/-- COND is written only when BUSY = 0 (R26, R53). -/
def writeCond (x : Nat) (s : State) : State :=
  if s.status.busy then s.markLost else { s with cond := { b := hostBit x 0, none := hostBit x 1 } }

/-- `HWrCSR(c, x)` for `x < 2^32` (R53, R28 to R35); a read-only or reserved number ignores the write. -/
def writeCsr (c x : Nat) (s : State) : State :=
  match c with
  | 0 => s.offer (BitVec.ofNat 32 x)
  | 1 => writeStatus x s
  | 4 => { s with ie := { doneIE := hostBit x 0, faultIE := hostBit x 1 } }
  | 5 => writeCtrl x s
  | 6 => writeCond x s
  | _ => s

/-- `HRdCSR(c)` (R53, R28 to R33); CMD, CTRL and the reserved numbers read 0. While BUSY the two bits of COND are
unspecified (R55, log entry 12). -/
def readCsr (c : Nat) (s : State) : State :=
  match c with
  | 1 => s.answer s.status.word
  | 2 => s.answer s.cause.code
  | 3 => s.answer s.fcmd.toNat
  | 4 => s.answer s.ie.word
  | 6 => if s.status.busy then s.answerUnspecified 2 else s.answer s.cond.word
  | 7 => s.answer (configWord s.cfg)
  | _ => s.answer 0

/-- A host write of a register file: discarded with LOST set while BUSY or when `ok` fails (R53, R54, log entry 13). -/
def guardedWrite (ok : Bool) (s t : State) : State := if s.status.busy || !ok then s.markLost else t

/-- A host read of a register file: unspecified with LOST set while BUSY or when `ok` fails (R53, R54). -/
def guardedRead (ok : Bool) (w x : Nat) (s : State) : State :=
  if s.status.busy || !ok then s.answerUnspecified w else s.answer x

/-- The value `x` fits the unit of `w` bits it is written to; a wider one is no operation of the port (log entry 9). -/
def fitting (w x : Nat) (t : State) : Answer := if x < 2 ^ w then .next t else .fault .hostValueTooWide

/-- One host-port operation (R53). -/
def hostStep (op : HostOp) (s : State) : Answer :=
  match op with
  | .wrWord v i w => fitting s.cfg.wordBits w (guardedWrite (decide (i < s.cfg.words)) s (s.setWord v i w))
  | .rdWord v i => .next (guardedRead (decide (i < s.cfg.words)) s.cfg.wordBits (s.word v i) s)
  | .wrFlags v x => fitting 4 x (guardedWrite true s (s.setFlags v (BitVec.ofNat 4 x)))
  | .rdFlags v => .next (guardedRead true 4 (s.bigFlags v).toNat s)
  | .wrS k x => fitting s.cfg.scalarBits x (guardedWrite true s (s.setScalar k x))
  | .rdS k => .next (guardedRead true s.cfg.scalarBits (s.scalar k) s)
  | .wrCsr c x => fitting 32 x (writeCsr c x s)
  | .rdCsr c => .next (readCsr c s)

end Sys2Proof.Machine
end

