-- ==== Sys2Proof/Machine/Step.lean ====
section
/-! DEFINITION. One step: the next turn of the total order of R62, or, when the order holds no more turns, the engine. -/

namespace Sys2Proof.Machine

/-- `Execute(c)`: a decode fault, or the command's meaning (R80, R306). -/
def execute (c : Word) (s : State) : Host.Outcome State Fault Refusal :=
  match decode c with
  | .error .illegalOpcode => raise .illegalOpcode s
  | .error .illegalForm => raise .illegalForm s
  | .ok i => exec i s

/-- The engine's turn: it is enabled when IFC holds a command (R34); else nothing changes. -/
def engineStep (s : State) : Host.Outcome State Fault Refusal :=
  match s.ifc with
  | some c => execute c s
  | none => .next s

/-- One step of the machine (R62). With no turn left the engine moves, so an accepted command completes (R355, log
entry 5). -/
def step (s : State) : Host.Outcome State Fault Refusal :=
  match s.order with
  | [] => engineStep s
  | .engine :: rest => engineStep { s with order := rest }
  | .host op :: rest => hostStep op { s with order := rest }
  | .hardReset :: rest => .next (hardReset { s with order := rest })

/-- `s` with the command `w` accepted (R34) and the engine's turn next: the acceptance of a CMD write stands for loading
a program (log entry 6). -/
def State.withFetchWord (s : State) (nbits w : Nat) : State :=
  { s with
    ifc := some (BitVec.ofNat 32 (w % 2 ^ nbits))
    status := { s.status with busy := true, done := false }
    order := .engine :: s.order }

end Sys2Proof.Machine
end

