-- ==== Sys2Proof/Machine/Reference.lean ====
section
/-! DEFINITION. The source's reference algorithms, which the spec calls informative: the word-serial carry chains (R120),
the two multipliers and their selection (R140 to R142), restoring division (R161), double-and-add reduction (R188) and the
word-by-word shifter (R254). No meaning uses them; the statements say that they compute what the meanings compute. The
power, modular power and root meanings run the source's own loops (Arith.lean, R200, R186, R208). -/

namespace Sys2Proof.Machine

/-- The carry chain over `n` words of `b` bits, word 0 first (R120): the sum of the words and the carry out. -/
def addChain (b : Nat) : Nat → Nat → Nat → Bool → Nat × Bool
  | 0, _, _, c => (0, c)
  | n + 1, a, r, c =>
    let w := a % 2 ^ b + r % 2 ^ b + c.toNat
    let rest := addChain b n (a / 2 ^ b) (r / 2 ^ b) (decide (2 ^ b ≤ w))
    (w % 2 ^ b + 2 ^ b * rest.1, rest.2)

/-- The borrow chain over `n` words of `b` bits (R120): the difference of the words and the borrow out. -/
def subChain (b : Nat) : Nat → Nat → Nat → Bool → Nat × Bool
  | 0, _, _, c => (0, c)
  | n + 1, a, r, c =>
    let s := r % 2 ^ b + c.toNat
    let rest := subChain b n (a / 2 ^ b) (r / 2 ^ b) (decide (a % 2 ^ b < s))
    ((a % 2 ^ b + 2 ^ b - s) % 2 ^ b + 2 ^ b * rest.1, rest.2)

/-- One row of algorithm 1: `n` words of `a` times the word `w`, the high half of each product carried into the next
word (R141). -/
def mulRow (b : Nat) : Nat → Nat → Nat → Nat → Nat
  | 0, _, _, carry => carry
  | n + 1, a, w, carry =>
    let p := a % 2 ^ b * w + carry
    p % 2 ^ b + 2 ^ b * mulRow b n (a / 2 ^ b) w (p / 2 ^ b)

/-- Algorithm 1, the carry-chain schoolbook: the rows of the words of `r`, each one word further up (R141). -/
def schoolbook (b n a : Nat) : Nat → Nat → Nat
  | 0, _ => 0
  | k + 1, r => mulRow b n a (r % 2 ^ b) 0 + 2 ^ b * schoolbook b n a k (r / 2 ^ b)

/-- Algorithm 2, double-and-add modulo `m`, over `t` bits of `r` from the lowest (R142). -/
def doubleAndAdd (m : Nat) : Nat → Nat → Nat → Nat → Nat
  | 0, acc, _, _ => acc
  | t + 1, acc, adder, r =>
    doubleAndAdd m t (if r % 2 = 1 then (acc + adder) % m else acc) (2 * adder % m) (r / 2)

/-- The low half as the configured multiplier computes it: algorithm 1 iff N is above the threshold (R5, R141, R142). -/
def multiplierLow (c : Config) (a r : Nat) : Nat :=
  if Config.mulThreshold < c.words then schoolbook c.wordBits c.words a c.words r % c.modulus
  else doubleAndAdd c.modulus c.totalBits 0 a r

/-- The loop of R161 from position `p` down; a quotient bit is set at most once, so `or` is a sum. -/
def restoringLoop (a r : Nat) : Nat → Nat → Nat → Nat × Nat
  | 0, rem, q => if r ≤ rem then (q + 1, rem - r) else (q, rem)
  | p + 1, rem, q =>
    if r ≤ rem then restoringLoop a r p (2 * (rem - r) + a / 2 ^ p % 2) (q + 2 ^ (p + 1))
    else restoringLoop a r p (2 * rem + a / 2 ^ p % 2) q

/-- Restoring division, for `a ≥ r > 0` (R161): the quotient and the remainder. -/
def restoringDivide (a r : Nat) : Nat × Nat :=
  let p := bitLen a - bitLen r
  restoringLoop a r p (a / 2 ^ p) 0

/-- Double-and-add reduction over `t` bits of `r`: the running value of self and the accumulator stay below `m` (R188). -/
def modularDoubleAndAdd (m : Nat) : Nat → Nat → Nat → Nat → Nat
  | 0, acc, _, _ => acc
  | t + 1, acc, run, r =>
    modularDoubleAndAdd m t (if r % 2 = 1 then (if acc + run < m then acc + run else acc + run - m) else acc)
      (if 2 * run < m then 2 * run else 2 * run - m) (r / 2)

/-- Word `i` of `a`, `b` bits (R7). -/
def wordAt (b a i : Nat) : Nat := a / 2 ^ (b * i) % 2 ^ b

/-- Word `i` of a left shift by `n`, from the words of `a`: the whole-word part and the spill of the word below (R254). -/
def shiftedWord (b a n i : Nat) : Nat :=
  let chunk := n / b
  let piece := n % b
  (if i < chunk then 0 else wordAt b a (i - chunk) * 2 ^ piece % 2 ^ b) |||
    (if i < chunk + 1 || piece == 0 then 0 else wordAt b a (i - chunk - 1) / 2 ^ (b - piece))

end Sys2Proof.Machine
end

