-- ==== Sys2Proof/Machine/Footprint.lean ====
section
/-! DEFINITION. The footprint of each command: the registers its rule reads and writes, whether it writes COND, and the
register whose flags its result inherits. The laws and Safety are stated with it; no meaning reads it. -/

namespace Sys2Proof

/-- The big registers the command writes when it completes with a result (the operands of 40_construct.md to 49_flags.md). -/
def Instr.vDests : Instr → List VReg
  | .vzero rd | .vone rd | .vmax rd | .vfromu rd _ | .vmov rd _ | .addWrap rd _ _ | .addWrapU rd _ _
  | .addOvf rd _ _ | .addOvfU rd _ _ | .addChk rd _ _ | .addChkU rd _ _ | .addUnchk rd _ _ | .addUnchkU rd _ _
  | .addSat rd _ _ | .addSatU rd _ _ | .addCarry rd _ _ | .addCarryU rd _ _ | .subWrap rd _ _ | .subWrapU rd _ _
  | .subOvf rd _ _ | .subOvfU rd _ _ | .subChk rd _ _ | .subChkU rd _ _ | .subUnchk rd _ _ | .subUnchkU rd _ _
  | .subSat rd _ _ | .subSatU rd _ _ | .subCarry rd _ _ | .subCarryU rd _ _ | .mulWrap rd _ _ | .mulWrapU rd _ _
  | .mulOvf rd _ _ | .mulOvfU rd _ _ | .mulChk rd _ _ | .mulChkU rd _ _ | .mulUnchk rd _ _ | .mulUnchkU rd _ _
  | .mulSat rd _ _ | .mulSatU rd _ _ | .divWrap rd _ _ | .divWrapU rd _ _ | .divOvf rd _ _ | .divOvfU rd _ _
  | .divChk rd _ _ | .divChkU rd _ _ | .divUnchk rd _ _ | .divUnchkU rd _ _ | .divSat rd _ _ | .divSatU rd _ _
  | .remWrap rd _ _ | .remWrapU rd _ _ | .remOvf rd _ _ | .remOvfU rd _ _ | .remChk rd _ _ | .remChkU rd _ _
  | .remUnchk rd _ _ | .remUnchkU rd _ _ | .remSat rd _ _ | .remSatU rd _ _ | .madd rd _ _ _ | .msub rd _ _ _
  | .mmul rd _ _ _ | .mdiv rd _ _ _ | .mrem rd _ _ _ | .mpow rd _ _ _ | .gcd rd _ _ | .powWrap rd _ _
  | .powWrapU rd _ _ | .powOvf rd _ _ | .powOvfU rd _ _ | .powChk rd _ _ | .powChkU rd _ _ | .powUnchk rd _ _
  | .powUnchkU rd _ _ | .powSat rd _ _ | .powSatU rd _ _ | .root rd _ _ | .rootU rd _ _ | .sqrt rd _
  | .bitAnd rd _ _ | .bitOr rd _ _ | .bitXor rd _ _ | .bitNot rd _ | .shl rd _ _ | .shr rd _ _ | .rotl rd _ _
  | .rotr rd _ _ | .revbits rd _ | .bswap rd _ | .tobe rd _ | .tole rd _ | .fset rd _ | .fclr rd _ => [rd]
  | .mulWide rd rd2 _ _ | .mulWideU rd rd2 _ _ | .mulCarry rd rd2 _ _ _ | .mulCarryU rd rd2 _ _ _
  | .divfull rd rd2 _ _ | .divfullU rd rd2 _ _ => [rd, rd2]
  | .isprime _ _ | .popcnt _ _ | .clz _ _ | .ctz _ _ | .clzw _ _ | .ctzw _ _ | .fget _ _ | .ftest _ _ | .condw _ => []

/-- The scalar registers the command writes (R25). -/
def Instr.sDests : Instr → List SReg
  | .vzero _ | .vone _ | .vmax _ | .vfromu _ _ | .vmov _ _ | .addWrap _ _ _ | .addWrapU _ _ _ | .addOvf _ _ _
  | .addOvfU _ _ _ | .addChk _ _ _ | .addChkU _ _ _ | .addUnchk _ _ _ | .addUnchkU _ _ _ | .addSat _ _ _
  | .addSatU _ _ _ | .addCarry _ _ _ | .addCarryU _ _ _ | .subWrap _ _ _ | .subWrapU _ _ _ | .subOvf _ _ _
  | .subOvfU _ _ _ | .subChk _ _ _ | .subChkU _ _ _ | .subUnchk _ _ _ | .subUnchkU _ _ _ | .subSat _ _ _
  | .subSatU _ _ _ | .subCarry _ _ _ | .subCarryU _ _ _ | .mulWrap _ _ _ | .mulWrapU _ _ _ | .mulOvf _ _ _
  | .mulOvfU _ _ _ | .mulChk _ _ _ | .mulChkU _ _ _ | .mulUnchk _ _ _ | .mulUnchkU _ _ _ | .mulSat _ _ _
  | .mulSatU _ _ _ | .mulWide _ _ _ _ | .mulWideU _ _ _ _ | .mulCarry _ _ _ _ _ | .mulCarryU _ _ _ _ _
  | .divfull _ _ _ _ | .divfullU _ _ _ _ | .divWrap _ _ _ | .divWrapU _ _ _ | .divOvf _ _ _ | .divOvfU _ _ _
  | .divChk _ _ _ | .divChkU _ _ _ | .divUnchk _ _ _ | .divUnchkU _ _ _ | .divSat _ _ _ | .divSatU _ _ _
  | .remWrap _ _ _ | .remWrapU _ _ _ | .remOvf _ _ _ | .remOvfU _ _ _ | .remChk _ _ _ | .remChkU _ _ _
  | .remUnchk _ _ _ | .remUnchkU _ _ _ | .remSat _ _ _ | .remSatU _ _ _ | .madd _ _ _ _ | .msub _ _ _ _
  | .mmul _ _ _ _ | .mdiv _ _ _ _ | .mrem _ _ _ _ | .mpow _ _ _ _ | .gcd _ _ _ | .powWrap _ _ _ | .powWrapU _ _ _
  | .powOvf _ _ _ | .powOvfU _ _ _ | .powChk _ _ _ | .powChkU _ _ _ | .powUnchk _ _ _ | .powUnchkU _ _ _
  | .powSat _ _ _ | .powSatU _ _ _ | .root _ _ _ | .rootU _ _ _ | .sqrt _ _ | .isprime _ _ | .bitAnd _ _ _
  | .bitOr _ _ _ | .bitXor _ _ _ | .bitNot _ _ | .shl _ _ _ | .shr _ _ _ | .rotl _ _ _ | .rotr _ _ _
  | .revbits _ _ | .bswap _ _ | .tobe _ _ | .tole _ _ | .fset _ _ | .fclr _ _ | .ftest _ _ | .condw _ => []
  | .popcnt rd _ | .clz rd _ | .ctz rd _ | .clzw rd _ | .ctzw rd _ | .fget rd _ => [rd]

/-- The big registers whose value or flags the command reads; FSET and FCLR read the flags they change. -/
def Instr.vSources : Instr → List VReg
  | .vzero _ | .vone _ | .vmax _ | .vfromu _ _ | .condw _ => []
  | .vmov _ rs1 | .addWrapU _ rs1 _ | .addOvfU _ rs1 _ | .addChkU _ rs1 _ | .addUnchkU _ rs1 _ | .addSatU _ rs1 _
  | .addCarryU _ rs1 _ | .subWrapU _ rs1 _ | .subOvfU _ rs1 _ | .subChkU _ rs1 _ | .subUnchkU _ rs1 _
  | .subSatU _ rs1 _ | .subCarryU _ rs1 _ | .mulWrapU _ rs1 _ | .mulOvfU _ rs1 _ | .mulChkU _ rs1 _
  | .mulUnchkU _ rs1 _ | .mulSatU _ rs1 _ | .mulWideU _ _ rs1 _ | .divfullU _ _ rs1 _ | .divWrapU _ rs1 _
  | .divOvfU _ rs1 _ | .divChkU _ rs1 _ | .divUnchkU _ rs1 _ | .divSatU _ rs1 _ | .remWrapU _ rs1 _
  | .remOvfU _ rs1 _ | .remChkU _ rs1 _ | .remUnchkU _ rs1 _ | .remSatU _ rs1 _ | .powWrapU _ rs1 _
  | .powOvfU _ rs1 _ | .powChkU _ rs1 _ | .powUnchkU _ rs1 _ | .powSatU _ rs1 _ | .rootU _ rs1 _ | .sqrt _ rs1
  | .isprime rs1 _ | .bitNot _ rs1 | .shl _ rs1 _ | .shr _ rs1 _ | .rotl _ rs1 _ | .rotr _ rs1 _ | .revbits _ rs1
  | .bswap _ rs1 | .tobe _ rs1 | .tole _ rs1 | .popcnt _ rs1 | .clz _ rs1 | .ctz _ rs1 | .clzw _ rs1
  | .ctzw _ rs1 | .fget _ rs1 | .ftest rs1 _ => [rs1]
  | .addWrap _ rs1 rs2 | .addOvf _ rs1 rs2 | .addChk _ rs1 rs2 | .addUnchk _ rs1 rs2 | .addSat _ rs1 rs2
  | .addCarry _ rs1 rs2 | .subWrap _ rs1 rs2 | .subOvf _ rs1 rs2 | .subChk _ rs1 rs2 | .subUnchk _ rs1 rs2
  | .subSat _ rs1 rs2 | .subCarry _ rs1 rs2 | .mulWrap _ rs1 rs2 | .mulOvf _ rs1 rs2 | .mulChk _ rs1 rs2
  | .mulUnchk _ rs1 rs2 | .mulSat _ rs1 rs2 | .mulWide _ _ rs1 rs2 | .divfull _ _ rs1 rs2 | .divWrap _ rs1 rs2
  | .divOvf _ rs1 rs2 | .divChk _ rs1 rs2 | .divUnchk _ rs1 rs2 | .divSat _ rs1 rs2 | .remWrap _ rs1 rs2
  | .remOvf _ rs1 rs2 | .remChk _ rs1 rs2 | .remUnchk _ rs1 rs2 | .remSat _ rs1 rs2 | .gcd _ rs1 rs2
  | .powWrap _ rs1 rs2 | .powOvf _ rs1 rs2 | .powChk _ rs1 rs2 | .powUnchk _ rs1 rs2 | .powSat _ rs1 rs2
  | .root _ rs1 rs2 | .bitAnd _ rs1 rs2 | .bitOr _ rs1 rs2 | .bitXor _ rs1 rs2 => [rs1, rs2]
  | .mulCarry _ _ rs1 rs2 rs3 | .madd _ rs1 rs2 rs3 | .msub _ rs1 rs2 rs3 | .mmul _ rs1 rs2 rs3
  | .mdiv _ rs1 rs2 rs3 | .mrem _ rs1 rs2 rs3 | .mpow _ rs1 rs2 rs3 => [rs1, rs2, rs3]
  | .mulCarryU _ _ rs1 _ rs3 => [rs1, rs3]
  | .fset rd _ | .fclr rd _ => [rd]

/-- The scalar registers the command reads (R25). -/
def Instr.sSources : Instr → List SReg
  | .vzero _ | .vone _ | .vmax _ | .vmov _ _ | .addWrap _ _ _ | .addOvf _ _ _ | .addChk _ _ _ | .addUnchk _ _ _
  | .addSat _ _ _ | .addCarry _ _ _ | .subWrap _ _ _ | .subOvf _ _ _ | .subChk _ _ _ | .subUnchk _ _ _
  | .subSat _ _ _ | .subCarry _ _ _ | .mulWrap _ _ _ | .mulOvf _ _ _ | .mulChk _ _ _ | .mulUnchk _ _ _
  | .mulSat _ _ _ | .mulWide _ _ _ _ | .mulCarry _ _ _ _ _ | .divfull _ _ _ _ | .divWrap _ _ _ | .divOvf _ _ _
  | .divChk _ _ _ | .divUnchk _ _ _ | .divSat _ _ _ | .remWrap _ _ _ | .remOvf _ _ _ | .remChk _ _ _
  | .remUnchk _ _ _ | .remSat _ _ _ | .madd _ _ _ _ | .msub _ _ _ _ | .mmul _ _ _ _ | .mdiv _ _ _ _
  | .mrem _ _ _ _ | .mpow _ _ _ _ | .gcd _ _ _ | .powWrap _ _ _ | .powOvf _ _ _ | .powChk _ _ _ | .powUnchk _ _ _
  | .powSat _ _ _ | .root _ _ _ | .sqrt _ _ | .bitAnd _ _ _ | .bitOr _ _ _ | .bitXor _ _ _ | .bitNot _ _
  | .revbits _ _ | .bswap _ _ | .tobe _ _ | .tole _ _ | .popcnt _ _ | .clz _ _ | .ctz _ _ | .clzw _ _ | .ctzw _ _
  | .fget _ _ | .fset _ _ | .fclr _ _ | .ftest _ _ | .condw _ => []
  | .vfromu _ rs2 | .addWrapU _ _ rs2 | .addOvfU _ _ rs2 | .addChkU _ _ rs2 | .addUnchkU _ _ rs2
  | .addSatU _ _ rs2 | .addCarryU _ _ rs2 | .subWrapU _ _ rs2 | .subOvfU _ _ rs2 | .subChkU _ _ rs2
  | .subUnchkU _ _ rs2 | .subSatU _ _ rs2 | .subCarryU _ _ rs2 | .mulWrapU _ _ rs2 | .mulOvfU _ _ rs2
  | .mulChkU _ _ rs2 | .mulUnchkU _ _ rs2 | .mulSatU _ _ rs2 | .mulWideU _ _ _ rs2 | .mulCarryU _ _ _ rs2 _
  | .divfullU _ _ _ rs2 | .divWrapU _ _ rs2 | .divOvfU _ _ rs2 | .divChkU _ _ rs2 | .divUnchkU _ _ rs2
  | .divSatU _ _ rs2 | .remWrapU _ _ rs2 | .remOvfU _ _ rs2 | .remChkU _ _ rs2 | .remUnchkU _ _ rs2
  | .remSatU _ _ rs2 | .powWrapU _ _ rs2 | .powOvfU _ _ rs2 | .powChkU _ _ rs2 | .powUnchkU _ _ rs2
  | .powSatU _ _ rs2 | .rootU _ _ rs2 | .isprime _ rs2 | .shl _ _ rs2 | .shr _ _ rs2 | .rotl _ _ rs2
  | .rotr _ _ rs2 => [rs2]

/-- The commands whose rule writes COND.B: the list of R26. -/
def Instr.writesB : Instr → Bool
  | .addOvf _ _ _ | .addOvfU _ _ _ | .addCarry _ _ _ | .addCarryU _ _ _ | .subOvf _ _ _ | .subOvfU _ _ _
  | .subCarry _ _ _ | .subCarryU _ _ _ | .mulOvf _ _ _ | .mulOvfU _ _ _ | .divOvf _ _ _ | .divOvfU _ _ _
  | .remOvf _ _ _ | .remOvfU _ _ _ | .powOvf _ _ _ | .powOvfU _ _ _ | .isprime _ _ | .ftest _ _ | .condw _ => true
  | _ => false

/-- The commands whose rule writes COND.NONE: the list of R26. -/
def Instr.writesNone : Instr → Bool
  | .addChk _ _ _ | .addChkU _ _ _ | .subChk _ _ _ | .subChkU _ _ _ | .mulChk _ _ _ | .mulChkU _ _ _
  | .divChk _ _ _ | .divChkU _ _ _ | .remChk _ _ _ | .remChkU _ _ _ | .powChk _ _ _ | .powChkU _ _ _ | .condw _ => true
  | _ => false

/-- The CHK commands (R72). -/
def Instr.checked : Instr → Bool
  | .addChk _ _ _ | .addChkU _ _ _ | .subChk _ _ _ | .subChkU _ _ _ | .mulChk _ _ _ | .mulChkU _ _ _
  | .divChk _ _ _ | .divChkU _ _ _ | .remChk _ _ _ | .remChkU _ _ _ | .powChk _ _ _ | .powChkU _ _ _ => true
  | _ => false

/-- The commands that write a flag field and leave the words (R60, R290). -/
def Instr.flagsOnly : Instr → Bool
  | .fset _ _ | .fclr _ _ => true
  | _ => false

/-- RS1 of a command that writes a big register from it: the register whose flags every destination inherits (R11, D6). -/
def Instr.self : Instr → Option VReg
  | .vmov _ rs1 | .addWrap _ rs1 _ | .addWrapU _ rs1 _ | .addOvf _ rs1 _ | .addOvfU _ rs1 _ | .addChk _ rs1 _
  | .addChkU _ rs1 _ | .addUnchk _ rs1 _ | .addUnchkU _ rs1 _ | .addSat _ rs1 _ | .addSatU _ rs1 _
  | .addCarry _ rs1 _ | .addCarryU _ rs1 _ | .subWrap _ rs1 _ | .subWrapU _ rs1 _ | .subOvf _ rs1 _
  | .subOvfU _ rs1 _ | .subChk _ rs1 _ | .subChkU _ rs1 _ | .subUnchk _ rs1 _ | .subUnchkU _ rs1 _
  | .subSat _ rs1 _ | .subSatU _ rs1 _ | .subCarry _ rs1 _ | .subCarryU _ rs1 _ | .mulWrap _ rs1 _
  | .mulWrapU _ rs1 _ | .mulOvf _ rs1 _ | .mulOvfU _ rs1 _ | .mulChk _ rs1 _ | .mulChkU _ rs1 _
  | .mulUnchk _ rs1 _ | .mulUnchkU _ rs1 _ | .mulSat _ rs1 _ | .mulSatU _ rs1 _ | .mulWide _ _ rs1 _
  | .mulWideU _ _ rs1 _ | .mulCarry _ _ rs1 _ _ | .mulCarryU _ _ rs1 _ _ | .divfull _ _ rs1 _
  | .divfullU _ _ rs1 _ | .divWrap _ rs1 _ | .divWrapU _ rs1 _ | .divOvf _ rs1 _ | .divOvfU _ rs1 _
  | .divChk _ rs1 _ | .divChkU _ rs1 _ | .divUnchk _ rs1 _ | .divUnchkU _ rs1 _ | .divSat _ rs1 _
  | .divSatU _ rs1 _ | .remWrap _ rs1 _ | .remWrapU _ rs1 _ | .remOvf _ rs1 _ | .remOvfU _ rs1 _
  | .remChk _ rs1 _ | .remChkU _ rs1 _ | .remUnchk _ rs1 _ | .remUnchkU _ rs1 _ | .remSat _ rs1 _
  | .remSatU _ rs1 _ | .madd _ rs1 _ _ | .msub _ rs1 _ _ | .mmul _ rs1 _ _ | .mdiv _ rs1 _ _ | .mrem _ rs1 _ _
  | .mpow _ rs1 _ _ | .gcd _ rs1 _ | .powWrap _ rs1 _ | .powWrapU _ rs1 _ | .powOvf _ rs1 _ | .powOvfU _ rs1 _
  | .powChk _ rs1 _ | .powChkU _ rs1 _ | .powUnchk _ rs1 _ | .powUnchkU _ rs1 _ | .powSat _ rs1 _
  | .powSatU _ rs1 _ | .root _ rs1 _ | .rootU _ rs1 _ | .sqrt _ rs1 | .bitAnd _ rs1 _ | .bitOr _ rs1 _
  | .bitXor _ rs1 _ | .bitNot _ rs1 | .shl _ rs1 _ | .shr _ rs1 _ | .rotl _ rs1 _ | .rotr _ rs1 _
  | .revbits _ rs1 | .bswap _ rs1 | .tobe _ rs1 | .tole _ rs1 => some rs1
  | .vzero _ | .vone _ | .vmax _ | .vfromu _ _ | .isprime _ _ | .popcnt _ _ | .clz _ _ | .ctz _ _ | .clzw _ _
  | .ctzw _ _ | .fget _ _ | .fset _ _ | .fclr _ _ | .ftest _ _ | .condw _ => none

end Sys2Proof
end

