-- ==== Sys2Proof/Safety.lean ====
section
/-! DEFINITION. What counts as a safe run (R344, R353), the invariant of the control registers, and the words the
statements use: how a command completes, how it faults, and what it leaves alone. -/

namespace Sys2Proof.Safety

open Sys2Proof.Machine

/-! ### The control registers -/

/-- The relations of R29, R30, R34 and R306 between STATUS, IFC, CAUSE and FCMD. -/
structure ControlInv (s : State) : Prop where
  /-- BUSY is 1 exactly while IFC holds a command. -/
  busy_iff : s.status.busy = s.ifc.isSome
  /-- A command in flight excludes a recorded fault and a recorded completion. -/
  busy_clear : s.status.busy = true → s.status.fault = false ∧ s.status.done = false
  /-- CAUSE holds a cause exactly while FAULT is 1. -/
  fault_iff : s.status.fault = true ↔ s.cause ≠ .none
  /-- Without a fault FCMD is 0. -/
  no_fcmd : s.status.fault = false → s.fcmd = 0
  /-- A fault leaves DONE at 0. -/
  fault_not_done : s.status.fault = true → s.status.done = false

/-! ### How a command ends -/

/-- The command completed: IFC and BUSY are cleared, DONE is set, and every other control register is as before (R34). -/
structure Completed (s t : State) : Prop where
  cfg : t.cfg = s.cfg
  status : t.status = { s.status with busy := false, done := true }
  ifc : t.ifc = none
  cause : t.cause = s.cause
  fcmd : t.fcmd = s.fcmd
  ie : t.ie = s.ie
  order : t.order = s.order
  returned : t.returned = s.returned
  draws : t.draws = s.draws

/-- Every big register outside `ds` keeps its value and its flags. -/
def BigsKept (s t : State) (ds : List VReg) : Prop :=
  ∀ v, v ∉ ds → t.big v = s.big v ∧ t.bigFlags v = s.bigFlags v

/-- Every scalar register outside `ds` keeps its value. -/
def ScalarsKept (s t : State) (ds : List SReg) : Prop := ∀ k, k ∉ ds → t.scalar k = s.scalar k

/-- Fault entry (R306) with cause `c`: the record is written, and V, S, COND and the rest are as before (R305). -/
structure FaultEntry (c : Cause) (s t : State) : Prop where
  cfg : t.cfg = s.cfg
  status : t.status = { s.status with busy := false, fault := true }
  ifc : t.ifc = none
  cause : t.cause = c
  fcmd : ∀ w, s.ifc = some w → t.fcmd = w
  ie : t.ie = s.ie
  order : t.order = s.order
  returned : t.returned = s.returned
  draws : t.draws = s.draws
  cond : t.cond = s.cond
  bigs : BigsKept s t []
  scalars : ScalarsKept s t []

/-- `i` completes in `s`: it writes `x` and the flags `f` to `rd`, leaves COND holding `cond`, and changes no other
register. -/
def WritesBig (i : Instr) (s : State) (rd : VReg) (x : Nat) (f : FlagField) (cond : Cond) : Prop :=
  ∃ t, exec i s = .next t ∧ Completed s t ∧ t.big rd = x ∧ t.bigFlags rd = f ∧ t.cond = cond ∧
    BigsKept s t [rd] ∧ ScalarsKept s t []

/-- `i` completes in `s`: it writes `x`, `f` to `rd` and `x2`, `f2` to `rd2`, and changes no other register, nor COND. -/
def WritesPair (i : Instr) (s : State) (rd rd2 : VReg) (x : Nat) (f : FlagField) (x2 : Nat) (f2 : FlagField) : Prop :=
  ∃ t, exec i s = .next t ∧ Completed s t ∧ t.big rd = x ∧ t.bigFlags rd = f ∧ t.big rd2 = x2 ∧ t.bigFlags rd2 = f2 ∧
    t.cond = s.cond ∧ BigsKept s t [rd, rd2] ∧ ScalarsKept s t []

/-- `i` completes in `s`: it writes `x` to the scalar `rd`, and changes no other register, nor COND. -/
def WritesScalar (i : Instr) (s : State) (rd : SReg) (x : Nat) : Prop :=
  ∃ t, exec i s = .next t ∧ Completed s t ∧ t.scalar rd = x ∧ t.cond = s.cond ∧
    BigsKept s t [] ∧ ScalarsKept s t [rd]

/-- `i` completes in `s` with COND holding `cond`, and changes no register. -/
def WritesCond (i : Instr) (s : State) (cond : Cond) : Prop :=
  ∃ t, exec i s = .next t ∧ Completed s t ∧ t.cond = cond ∧ BigsKept s t [] ∧ ScalarsKept s t []

/-- `i` faults in `s` with cause `c` (R306). -/
def Faults (i : Instr) (s : State) (c : Cause) : Prop := ∃ t, exec i s = .next t ∧ FaultEntry c s t

/-! ### Runs (R344) -/

/-- A launch state: nothing in flight and no fault (R344). -/
def Launch (s : State) : Prop := s.status.busy = false ∧ s.status.fault = false ∧ s.ifc = none

/-- The registers written since the last hard reset: the words and flag fields the host wrote, and the registers a command
wrote whole (R342, R353). -/
structure Written where
  words : List (VReg × Nat)
  flags : List VReg
  bigs : List VReg
  scalars : List SReg
deriving DecidableEq, Repr

/-- Nothing has been written. -/
def Written.nothing : Written := { words := [], flags := [], bigs := [], scalars := [] }

/-- `V[v]` has been fully written: by a command, or by the host in every one of its `n` words and its flags (R353). -/
def Written.hasBig (w : Written) (n : Nat) (v : VReg) : Bool :=
  w.bigs.contains v || (w.flags.contains v && (List.range n).all fun i => w.words.contains (v, i))

/-- `S[k]` has been written (R353). -/
def Written.hasScalar (w : Written) (k : SReg) : Bool := w.scalars.contains k

/-- What is watched beside a run: what has been written, and whether a fault, a lost access or a read of an UNSPECIFIED
register has happened (R344, R353). The spec has a model stop at such a read; this one goes on with the value State.reset
names and reports the read here (log entry 10). -/
structure Monitor where
  written : Written
  faulted : Bool
  lost : Bool
  unspecified : Bool
deriving DecidableEq, Repr

/-- The monitor at a hard reset. -/
def Monitor.start : Monitor := { written := .nothing, faulted := false, lost := false, unspecified := false }

/-- A host operation that the port performs (R53, R54): what it writes and whether it reads an unwritten register. -/
def Monitor.seeHost (m : Monitor) (s : State) (op : HostOp) : Monitor :=
  if s.status.busy then m
  else
    let w := m.written
    match op with
    | .wrWord v i _ => if i < s.cfg.words then { m with written := { w with words := (v, i) :: w.words } } else m
    | .wrFlags v _ => { m with written := { w with flags := v :: w.flags } }
    | .wrS k _ => { m with written := { w with scalars := k :: w.scalars } }
    | .rdWord v i =>
      { m with unspecified := m.unspecified || (decide (i < s.cfg.words) && !w.hasBig s.cfg.words v) }
    | .rdFlags v => { m with unspecified := m.unspecified || !w.hasBig s.cfg.words v }
    | .rdS k => { m with unspecified := m.unspecified || !w.hasScalar k }
    | .wrCsr _ _ | .rdCsr _ => m

/-- The engine step that takes `s` to `t` with command `i`: its reads, and its writes if it did not fault and was not a
CHK command that answered None (R342, R353). FSET and FCLR write no whole register. -/
def Monitor.seeCommand (m : Monitor) (s t : State) (i : Instr) : Monitor :=
  let w := m.written
  let bad := (i.vSources.any fun v => !w.hasBig s.cfg.words v) || (i.sSources.any fun k => !w.hasScalar k)
  let keeps := t.status.fault || (i.checked && t.cond.none) || i.flagsOnly
  { m with
    unspecified := m.unspecified || bad
    written := if keeps then w else { w with bigs := i.vDests ++ w.bigs, scalars := i.sDests ++ w.scalars } }

/-- The engine's turn. -/
def Monitor.seeEngine (m : Monitor) (s t : State) : Monitor :=
  match s.ifc with
  | none => m
  | some c =>
    match decode c with
    | .error _ => m
    | .ok i => m.seeCommand s t i

/-- One step from `s` to `t`, seen by the monitor. `lost` is set when STATUS.LOST is 1 after a step, so a run launched with
LOST already 1 is not clean unless its first step clears it, even if it discards nothing: R344 leaves that open. DESIGN
CHOICE, safe: log entry 18. A hard reset inside the run, of which R344 does not speak, makes every register unwritten again
and keeps `faulted`, `lost` and `unspecified`. DESIGN CHOICE, safe: log entry 19. -/
def Monitor.see (m : Monitor) (s t : State) : Monitor :=
  let m' :=
    match s.order with
    | [] | .engine :: _ => m.seeEngine s t
    | .host op :: _ => m.seeHost s op
    | .hardReset :: _ => { m with written := .nothing }
  { m' with faulted := m'.faulted || t.status.fault, lost := m'.lost || t.status.lost }

/-- A watched run of `n` steps, or nothing if the machine stops. -/
def watch : Nat → Monitor → State → Option (State × Monitor)
  | 0, m, s => some (s, m)
  | n + 1, m, s =>
    match step s with
    | .next t => watch n (m.see s t) t
    | .fault _ => none
    | .refused _ => none

/-- The end of a run: the host has issued its last operation, and nothing is in flight (R344). It asks for the whole order
to be consumed, so engine turns and hard resets listed after the last host operation put it off; R344 does not speak of a
hard reset there. DESIGN CHOICE, unsafe for an order that lists one there: log entry 19. -/
def RunEnd (s : State) : Prop := s.order = [] ∧ s.status.busy = false ∧ s.ifc = none

/-- The run has faulted: its results are not defined (R313, R344). The order is consumed, as for `RunEnd` (log entry 19). -/
def FaultedEnd (s : State) : Prop := s.order = [] ∧ s.status.fault = true

/-- The run completed cleanly: no fault, no lost access (R344), and no read of an UNSPECIFIED register (R353). -/
def CleanEnd (s : State) (m : Monitor) : Prop :=
  RunEnd s ∧ m.faulted = false ∧ m.lost = false ∧ m.unspecified = false

end Sys2Proof.Safety
end

