-- ==== Sys2Proof/Certificates/Slice0/Obligations.lean ====
section
/-! DEFINITION. The statements for the provers. The first part holds the words they use: the encodings of R70 and R74
written with the spec's numbers, the operand forms of R11, and the spec's formulas where the model computes them another
way. -/

namespace Sys2Proof.Claims

open Sys2Proof.Machine Sys2Proof.Safety

/-- The 32-bit word with the given fields and both reserved bits 0 (R70). -/
def fieldWord (op var u : Nat) (rd rs1 rs2 rs3 rd2 : Fin 16) : Word :=
  BitVec.ofNat 32
    (op * 2 ^ 26 + var * 2 ^ 23 + u * 2 ^ 22 + rd.val * 2 ^ 17 + rs1.val * 2 ^ 13 + rs2.val * 2 ^ 9 + rs3.val * 2 ^ 5
      + rd2.val * 2)

/-- That word is the command `i` (R74, R80). -/
def Encodes (op var u : Nat) (rd rs1 rs2 rs3 rd2 : Fin 16) (i : Instr) : Prop :=
  decode (fieldWord op var u rd rs1 rs2 rs3 rd2) = .ok i

/-- A command of format R2 with its single-word form (R11, R73, R74): `P i s rd rs1 r` holds of both, with `r` the big
operand or the low `b` bits of the scalar. -/
def BothForms (op var : Nat) (big : VReg → VReg → VReg → Instr) (word : VReg → VReg → SReg → Instr)
    (P : Instr → State → VReg → VReg → Nat → Prop) : Prop :=
  ∀ (s : State) (rd rs1 : VReg),
    (∀ rs2 : VReg, Encodes op var 0 rd rs1 rs2 0 0 (big rd rs1 rs2) ∧ P (big rd rs1 rs2) s rd rs1 (s.big rs2)) ∧
    (∀ rs2 : SReg, Encodes op var 1 rd rs1 rs2 0 0 (word rd rs1 rs2) ∧
      P (word rd rs1 rs2) s rd rs1 (s.scalar rs2 % 2 ^ s.cfg.wordBits))

/-- A two-destination command and its single-word form (R74, R77), `rs3` being its third source or 0: with two different
destinations `P i s rd rd2 rs1 r` holds of both forms; with one destination twice the word is ILLEGAL_FORM. -/
def PairForms (op var : Nat) (rs3 : VReg) (big : VReg → VReg → VReg → VReg → Instr)
    (word : VReg → VReg → VReg → SReg → Instr) (P : Instr → State → VReg → VReg → VReg → Nat → Prop) : Prop :=
  ∀ (s : State) (rd rd2 rs1 : VReg),
    (∀ rs2 : VReg,
      if rd = rd2 then decode (fieldWord op var 0 rd rs1 rs2 rs3 rd2) = .error .illegalForm
      else Encodes op var 0 rd rs1 rs2 rs3 rd2 (big rd rd2 rs1 rs2) ∧ P (big rd rd2 rs1 rs2) s rd rd2 rs1 (s.big rs2)) ∧
    (∀ rs2 : SReg,
      if rd = rd2 then decode (fieldWord op var 1 rd rs1 rs2 rs3 rd2) = .error .illegalForm
      else Encodes op var 1 rd rs1 rs2 rs3 rd2 (word rd rd2 rs1 rs2) ∧
        P (word rd rd2 rs1 rs2) s rd rd2 rs1 (s.scalar rs2 % 2 ^ s.cfg.wordBits))

/-- A command of format R3 (R74, R180). -/
def ModularForm (op : Nat) (cmd : VReg → VReg → VReg → VReg → Instr)
    (P : Instr → State → VReg → VReg → Nat → Nat → Prop) : Prop :=
  ∀ (s : State) (rd rs1 rs2 rs3 : VReg),
    Encodes op 0 0 rd rs1 rs2 rs3 0 (cmd rd rs1 rs2 rs3) ∧ P (cmd rd rs1 rs2 rs3) s rd rs1 (s.big rs2) (s.big rs3)

/-- A result whose bit `j` is `g j` for every `j` below the total width. -/
def WritesBits (i : Instr) (s : State) (rd : VReg) (g : Nat → Bool) (f : FlagField) : Prop :=
  ∃ x, x < s.cfg.modulus ∧ (∀ j, j < s.cfg.totalBits → x.testBit j = g j) ∧ WritesBig i s rd x f s.cond

/-- A result whose byte `j` is byte `T/8 - 1 - j` of `a` (R56, R261). -/
def WritesSwapped (i : Instr) (s : State) (rd : VReg) (a : Nat) (f : FlagField) : Prop :=
  ∃ x, x < s.cfg.modulus ∧
    (∀ j, j < s.cfg.totalBits / 8 → x / 256 ^ j % 256 = a / 256 ^ (s.cfg.totalBits / 8 - 1 - j) % 256) ∧
    WritesBig i s rd x f s.cond

/-- The witness sequence of R220. -/
def witness (k : Nat) : Nat :=
  [2, 7, 61, 325, 9375, 28178, 450775, 9780504, 1795265022].getD k (1795265022 + (k - 8))

/-- The witness `w` does not prove the odd `n` composite (R221). -/
def WitnessPasses (n w : Nat) : Prop :=
  w % n = 0 ∨ ∃ d t, d % 2 = 1 ∧ n - 1 = d * 2 ^ t ∧ (w ^ d % n = 1 ∨ ∃ j, j < t ∧ w ^ (d * 2 ^ j) % n = n - 1)

/-- The verdict of R221. -/
def ReportedPrime (n reps : Nat) : Prop :=
  n = 2 ∨ n = 3 ∨ (5 ≤ n ∧ n % 2 = 1 ∧ ∀ k, k < reps → WitnessPasses n (witness k))

/-- The reserved opcodes of R78. -/
def reservedOpcodes : List Nat :=
  [0x00, 0x06, 0x07, 0x0A, 0x0B, 0x0D, 0x0E, 0x0F, 0x13, 0x1B, 0x31, 0x32, 0x33, 0x39, 0x3A, 0x3B, 0x3C, 0x3D, 0x3E, 0x3F]

/-- The column "VAR allowed" of R74. -/
def allowedVariants (op : Nat) : List Nat :=
  if op = 0x08 ∨ op = 0x09 then [0, 1, 2, 3, 4, 5]
  else if op = 0x0C then [0, 1, 2, 3, 4, 5, 6]
  else if op = 0x11 ∨ op = 0x12 ∨ op = 0x1C then [0, 1, 2, 3, 4]
  else [0]

/-- The column "U allowed" of R74. -/
def wordFormAllowed (op : Nat) : Bool := [0x08, 0x09, 0x0C, 0x10, 0x11, 0x12, 0x1C, 0x1D].contains op

/-- The fields a form uses (R74, column "fields"): RD, RS1, RS2, RS3 or IMM4, RD2. -/
def usedFields (op var : Nat) : List Bool :=
  if op ∈ [0x01, 0x02, 0x03] then [true, false, false, false, false]
  else if op = 0x04 then [true, false, true, false, false]
  else if op = 0x10 ∨ (op = 0x0C ∧ var = 6) then [true, true, true, false, true]
  else if op = 0x0C ∧ var = 5 then [true, true, true, true, true]
  else if op ∈ [0x14, 0x15, 0x16, 0x17, 0x18, 0x19] then [true, true, true, true, false]
  else if op = 0x1F then [false, true, true, false, false]
  else if op ∈ [0x35, 0x36] then [true, false, false, true, false]
  else if op = 0x37 then [false, true, false, true, false]
  else if op = 0x38 then [false, false, false, true, false]
  else if op ∈ [0x08, 0x09, 0x0C, 0x11, 0x12, 0x1A, 0x1C, 0x1D, 0x20, 0x21, 0x22, 0x24, 0x25, 0x26, 0x27] then
    [true, true, true, false, false]
  else [true, true, false, false, false]

/-- The bits `[lo, lo + n)` of a word, as a number. -/
def bitsAt (c : Word) (lo n : Nat) : Nat := c.toNat / 2 ^ lo % 2 ^ n

/-- The form checks of R303, for a word whose opcode is defined. -/
def BrokenForm (c : Word) : Prop :=
  let op := bitsAt c 26 6
  let var := bitsAt c 23 3
  var ∉ allowedVariants op ∨ (bitsAt c 22 1 = 1 ∧ wordFormAllowed op = false) ∨ bitsAt c 21 1 = 1 ∨ bitsAt c 0 1 = 1 ∨
    (∃ p ∈ (usedFields op var).zip [bitsAt c 17 4, bitsAt c 13 4, bitsAt c 9 4, bitsAt c 5 4, bitsAt c 1 4],
      p.1 = false ∧ p.2 ≠ 0) ∨
    (op = 0x38 ∧ 4 ≤ bitsAt c 5 4) ∨
    ((op = 0x10 ∨ (op = 0x0C ∧ 5 ≤ var)) ∧ bitsAt c 17 4 = bitsAt c 1 4)

/-- The execution fault of a command, if its operands raise one (R301, codes 3 to 7). -/
def executionFault (i : Instr) (s : State) : Option Cause :=
  let w (k : SReg) := s.scalar k % 2 ^ s.cfg.wordBits
  let tooBig (x : Nat) : Option Cause := if s.cfg.modulus ≤ x then some .uncheckedOverflow else none
  let ifZero (r : Nat) (c : Cause) : Option Cause := if r = 0 then some c else none
  match i with
  | .addUnchk _ rs1 rs2 => tooBig (s.big rs1 + s.big rs2)
  | .addUnchkU _ rs1 rs2 => tooBig (s.big rs1 + w rs2)
  | .mulUnchk _ rs1 rs2 => tooBig (s.big rs1 * s.big rs2)
  | .mulUnchkU _ rs1 rs2 => tooBig (s.big rs1 * w rs2)
  | .powUnchk _ rs1 rs2 => tooBig (s.big rs1 ^ s.big rs2)
  | .powUnchkU _ rs1 rs2 => tooBig (s.big rs1 ^ w rs2)
  | .subUnchk _ rs1 rs2 => if s.big rs1 < s.big rs2 then some .uncheckedUnderflow else none
  | .subUnchkU _ rs1 rs2 => if s.big rs1 < w rs2 then some .uncheckedUnderflow else none
  | .divUnchk _ _ rs2 | .remUnchk _ _ rs2 => ifZero (s.big rs2) .uncheckedDivzero
  | .divUnchkU _ _ rs2 | .remUnchkU _ _ rs2 => ifZero (w rs2) .uncheckedDivzero
  | .gcd _ rs1 rs2 => if s.big rs1 = 0 ∨ s.big rs2 = 0 then some .gcdZero else none
  | .root _ _ rs2 => ifZero (s.big rs2) .rootZeroExp
  | .rootU _ _ rs2 => ifZero (w rs2) .rootZeroExp
  | _ => none

/-- The commands that may add OVERFLOW to a destination (R22, bit 0). -/
def mayOverflow : Instr → Bool
  | .addWrap .. | .addWrapU .. | .addOvf .. | .addOvfU .. | .addCarry .. | .addCarryU .. | .mulWrap .. | .mulWrapU ..
  | .mulOvf .. | .mulOvfU .. | .powWrap .. | .powWrapU .. | .powOvf .. | .powOvfU .. | .shl .. | .divfull ..
  | .divfullU .. | .divWrap .. | .divWrapU .. | .divOvf .. | .divOvfU .. | .madd .. | .msub .. | .mmul .. | .mdiv ..
  | .mrem .. | .mpow .. | .fset .. => true
  | _ => false

/-- The commands that may add UNDERFLOW (R22, bit 1). -/
def mayUnderflow : Instr → Bool
  | .subWrap .. | .subWrapU .. | .subOvf .. | .subOvfU .. | .subCarry .. | .subCarryU .. | .shr .. | .fset .. => true
  | _ => false

/-- The commands that may add INFINITY (R22, bit 2). -/
def mayBeInfinite : Instr → Bool
  | .divfull .. | .divfullU .. | .divWrap .. | .divWrapU .. | .divOvf .. | .divOvfU .. | .madd .. | .msub .. | .mmul ..
  | .mdiv .. | .mrem .. | .mpow .. | .fset .. => true
  | _ => false

/-- The commands that may add DIVIDED_BY_ZERO (R22, bit 3). -/
def mayDivideByZero : Instr → Bool
  | .divfull .. | .divfullU .. | .divWrap .. | .divWrapU .. | .divOvf .. | .divOvfU .. | .divSat .. | .divSatU ..
  | .remWrap .. | .remWrapU .. | .remOvf .. | .remOvfU .. | .remSat .. | .remSatU .. | .madd .. | .msub .. | .mmul ..
  | .mdiv .. | .mrem .. | .mpow .. | .fset .. => true
  | _ => false

/-- Everything but the turn consumed, STATUS.LOST, the values returned and the count of draws is as before. -/
def OnlyHostSees (s t : State) (rest : List Turn) : Prop :=
  t = { s with order := rest, status := { s.status with lost := t.status.lost }, returned := t.returned,
               draws := t.draws }

/-- The turn is consumed, and everything but V and S is as before. -/
structure OnlyRegistersChange (s t : State) (rest : List Turn) : Prop where
  cfg : t.cfg = s.cfg
  cond : t.cond = s.cond
  status : t.status = s.status
  cause : t.cause = s.cause
  fcmd : t.fcmd = s.fcmd
  ie : t.ie = s.ie
  ifc : t.ifc = s.ifc
  order : t.order = rest
  returned : t.returned = s.returned
  draws : t.draws = s.draws

end Sys2Proof.Claims

open Sys2Proof Sys2Proof.Machine Sys2Proof.Safety Sys2Proof.Claims

/-! ### The commands -/

/-- R101 to R105: the constructors write 0, 1, `M - 1` and the whole scalar, with no flag; VMOV copies the value and its
flags. -/
def Obligations.ConstructorsAndMoveWriteTheirValues : Prop :=
  ∀ (s : State) (rd rs1 : VReg) (rs2 : SReg),
    (Encodes 0x01 0 0 rd 0 0 0 0 (.vzero rd) ∧ WritesBig (.vzero rd) s rd 0 0 s.cond) ∧
    (Encodes 0x02 0 0 rd 0 0 0 0 (.vone rd) ∧ WritesBig (.vone rd) s rd 1 0 s.cond) ∧
    (Encodes 0x03 0 0 rd 0 0 0 0 (.vmax rd) ∧ WritesBig (.vmax rd) s rd (s.cfg.modulus - 1) 0 s.cond) ∧
    (Encodes 0x04 0 0 rd 0 rs2 0 0 (.vfromu rd rs2) ∧ WritesBig (.vfromu rd rs2) s rd (s.scalar rs2) 0 s.cond) ∧
    (Encodes 0x05 0 0 rd rs1 0 0 0 (.vmov rd rs1) ∧ WritesBig (.vmov rd rs1) s rd (s.big rs1) (s.bigFlags rs1) s.cond)

/-- R121, R122: the sum modulo `M`; OVERFLOW, and in OVF COND.B, iff the sum is not below `M`. -/
def Obligations.AddWrapsAndReportsOverflow : Prop :=
  (BothForms 0x08 0 .addWrap .addWrapU fun i s rd rs1 r =>
    WritesBig i s rd ((s.big rs1 + r) % s.cfg.modulus)
      (if s.cfg.modulus ≤ s.big rs1 + r then s.bigFlags rs1 ||| 0b0001#4 else s.bigFlags rs1) s.cond) ∧
  BothForms 0x08 1 .addOvf .addOvfU fun i s rd rs1 r =>
    WritesBig i s rd ((s.big rs1 + r) % s.cfg.modulus)
      (if s.cfg.modulus ≤ s.big rs1 + r then s.bigFlags rs1 ||| 0b0001#4 else s.bigFlags rs1)
      { s.cond with b := decide (s.cfg.modulus ≤ s.big rs1 + r) }

/-- R123, R124, R125: on overflow CHK writes None alone, UNCHK faults, SAT clamps; else the exact sum, no flag added. -/
def Obligations.AddCheckedUncheckedSaturating : Prop :=
  (BothForms 0x08 2 .addChk .addChkU fun i s rd rs1 r =>
    if s.cfg.modulus ≤ s.big rs1 + r then WritesCond i s { s.cond with none := true }
    else WritesBig i s rd (s.big rs1 + r) (s.bigFlags rs1) { s.cond with none := false }) ∧
  (BothForms 0x08 3 .addUnchk .addUnchkU fun i s rd rs1 r =>
    if s.cfg.modulus ≤ s.big rs1 + r then Faults i s .uncheckedOverflow
    else WritesBig i s rd (s.big rs1 + r) (s.bigFlags rs1) s.cond) ∧
  BothForms 0x08 4 .addSat .addSatU fun i s rd rs1 r =>
    WritesBig i s rd (if s.cfg.modulus ≤ s.big rs1 + r then s.cfg.modulus - 1 else s.big rs1 + r) (s.bigFlags rs1)
      s.cond

/-- R126: the carry in is COND.B, and the carry out goes to COND.B and OVERFLOW. -/
def Obligations.AddCarryChainsThroughCondB : Prop :=
  BothForms 0x08 5 .addCarry .addCarryU fun i s rd rs1 r =>
    WritesBig i s rd ((s.big rs1 + r + s.cond.b.toNat) % s.cfg.modulus)
      (if s.cfg.modulus ≤ s.big rs1 + r + s.cond.b.toNat then s.bigFlags rs1 ||| 0b0001#4 else s.bigFlags rs1)
      { s.cond with b := decide (s.cfg.modulus ≤ s.big rs1 + r + s.cond.b.toNat) }

/-- R127, R128: the difference, with `M` added and UNDERFLOW set on a borrow; in OVF the borrow goes to COND.B. -/
def Obligations.SubWrapsAndReportsBorrow : Prop :=
  (BothForms 0x09 0 .subWrap .subWrapU fun i s rd rs1 r =>
    if s.big rs1 < r then WritesBig i s rd (s.big rs1 + s.cfg.modulus - r) (s.bigFlags rs1 ||| 0b0010#4) s.cond
    else WritesBig i s rd (s.big rs1 - r) (s.bigFlags rs1) s.cond) ∧
  BothForms 0x09 1 .subOvf .subOvfU fun i s rd rs1 r =>
    if s.big rs1 < r then
      WritesBig i s rd (s.big rs1 + s.cfg.modulus - r) (s.bigFlags rs1 ||| 0b0010#4) { s.cond with b := true }
    else WritesBig i s rd (s.big rs1 - r) (s.bigFlags rs1) { s.cond with b := false }

/-- R129, R130, R131: on a borrow CHK writes None alone, UNCHK faults, SAT writes 0; else the difference, no flag added. -/
def Obligations.SubCheckedUncheckedSaturating : Prop :=
  (BothForms 0x09 2 .subChk .subChkU fun i s rd rs1 r =>
    if s.big rs1 < r then WritesCond i s { s.cond with none := true }
    else WritesBig i s rd (s.big rs1 - r) (s.bigFlags rs1) { s.cond with none := false }) ∧
  (BothForms 0x09 3 .subUnchk .subUnchkU fun i s rd rs1 r =>
    if s.big rs1 < r then Faults i s .uncheckedUnderflow
    else WritesBig i s rd (s.big rs1 - r) (s.bigFlags rs1) s.cond) ∧
  BothForms 0x09 4 .subSat .subSatU fun i s rd rs1 r =>
    if s.big rs1 < r then WritesBig i s rd 0 (s.bigFlags rs1) s.cond
    else WritesBig i s rd (s.big rs1 - r) (s.bigFlags rs1) s.cond

/-- R132: the borrow in is COND.B, and the borrow out goes to COND.B and UNDERFLOW. -/
def Obligations.SubCarryChainsThroughCondB : Prop :=
  BothForms 0x09 5 .subCarry .subCarryU fun i s rd rs1 r =>
    if s.big rs1 < r + s.cond.b.toNat then
      WritesBig i s rd (s.big rs1 + s.cfg.modulus - (r + s.cond.b.toNat)) (s.bigFlags rs1 ||| 0b0010#4)
        { s.cond with b := true }
    else WritesBig i s rd (s.big rs1 - (r + s.cond.b.toNat)) (s.bigFlags rs1) { s.cond with b := false }

/-- R143, R144: the low half of the product; OVERFLOW, and in OVF COND.B, iff the product is not below `M`. -/
def Obligations.MulWrapsAndReportsOverflow : Prop :=
  (BothForms 0x0C 0 .mulWrap .mulWrapU fun i s rd rs1 r =>
    WritesBig i s rd (s.big rs1 * r % s.cfg.modulus)
      (if s.cfg.modulus ≤ s.big rs1 * r then s.bigFlags rs1 ||| 0b0001#4 else s.bigFlags rs1) s.cond) ∧
  BothForms 0x0C 1 .mulOvf .mulOvfU fun i s rd rs1 r =>
    WritesBig i s rd (s.big rs1 * r % s.cfg.modulus)
      (if s.cfg.modulus ≤ s.big rs1 * r then s.bigFlags rs1 ||| 0b0001#4 else s.bigFlags rs1)
      { s.cond with b := decide (s.cfg.modulus ≤ s.big rs1 * r) }

/-- R145, R146, R147: on overflow CHK writes None alone, UNCHK faults, SAT clamps; else the exact product. -/
def Obligations.MulCheckedUncheckedSaturating : Prop :=
  (BothForms 0x0C 2 .mulChk .mulChkU fun i s rd rs1 r =>
    if s.cfg.modulus ≤ s.big rs1 * r then WritesCond i s { s.cond with none := true }
    else WritesBig i s rd (s.big rs1 * r) (s.bigFlags rs1) { s.cond with none := false }) ∧
  (BothForms 0x0C 3 .mulUnchk .mulUnchkU fun i s rd rs1 r =>
    if s.cfg.modulus ≤ s.big rs1 * r then Faults i s .uncheckedOverflow
    else WritesBig i s rd (s.big rs1 * r) (s.bigFlags rs1) s.cond) ∧
  BothForms 0x0C 4 .mulSat .mulSatU fun i s rd rs1 r =>
    WritesBig i s rd (if s.cfg.modulus ≤ s.big rs1 * r then s.cfg.modulus - 1 else s.big rs1 * r) (s.bigFlags rs1)
      s.cond

/-- R148, R149: the two halves of the exact product, or of the product plus the carry addend, both with RS1's flags. -/
def Obligations.WideMultiplyWritesBothHalves : Prop :=
  (PairForms 0x0C 6 0 .mulWide .mulWideU fun i s rd rd2 rs1 r =>
    ∃ lo hi, lo < s.cfg.modulus ∧ hi < s.cfg.modulus ∧ s.big rs1 * r = hi * s.cfg.modulus + lo ∧
      WritesPair i s rd rd2 lo (s.bigFlags rs1) hi (s.bigFlags rs1)) ∧
  ∀ rs3 : VReg,
    PairForms 0x0C 5 rs3 (fun rd rd2 rs1 rs2 => .mulCarry rd rd2 rs1 rs2 rs3)
      (fun rd rd2 rs1 rs2 => .mulCarryU rd rd2 rs1 rs2 rs3) fun i s rd rd2 rs1 r =>
      ∃ lo hi, lo < s.cfg.modulus ∧ hi < s.cfg.modulus ∧ s.big rs1 * r + s.big rs3 = hi * s.cfg.modulus + lo ∧
        WritesPair i s rd rd2 lo (s.bigFlags rs1) hi (s.bigFlags rs1)

/-- R160, R162: quotient and remainder; a zero divisor gives the two sentinels with their flags, for every dividend. -/
def Obligations.DivideFullyWritesQuotientAndRemainder : Prop :=
  PairForms 0x10 0 0 .divfull .divfullU fun i s rd rd2 rs1 r =>
    if r = 0 then
      WritesPair i s rd rd2 (s.cfg.modulus - 1) (s.bigFlags rs1 ||| 0b1101#4) 0 (s.bigFlags rs1 ||| 0b1000#4)
    else
      ∃ q m, s.big rs1 = q * r + m ∧ m < r ∧ WritesPair i s rd rd2 q (s.bigFlags rs1) m (s.bigFlags rs1)

/-- R163, R164: the quotient, or the all-ones sentinel with O, I and D; OVF tells the zero divisor in COND.B. -/
def Obligations.DivWrapNeverFaults : Prop :=
  (BothForms 0x11 0 .divWrap .divWrapU fun i s rd rs1 r =>
    if r = 0 then WritesBig i s rd (s.cfg.modulus - 1) (s.bigFlags rs1 ||| 0b1101#4) s.cond
    else WritesBig i s rd (s.big rs1 / r) (s.bigFlags rs1) s.cond) ∧
  BothForms 0x11 1 .divOvf .divOvfU fun i s rd rs1 r =>
    if r = 0 then WritesBig i s rd (s.cfg.modulus - 1) (s.bigFlags rs1 ||| 0b1101#4) { s.cond with b := true }
    else WritesBig i s rd (s.big rs1 / r) (s.bigFlags rs1) { s.cond with b := false }

/-- R165, R166, R167: on a zero divisor CHK writes None alone, UNCHK faults, SAT writes the sentinel and adds D alone. -/
def Obligations.DivCheckedUncheckedSaturating : Prop :=
  (BothForms 0x11 2 .divChk .divChkU fun i s rd rs1 r =>
    if r = 0 then WritesCond i s { s.cond with none := true }
    else WritesBig i s rd (s.big rs1 / r) (s.bigFlags rs1) { s.cond with none := false }) ∧
  (BothForms 0x11 3 .divUnchk .divUnchkU fun i s rd rs1 r =>
    if r = 0 then Faults i s .uncheckedDivzero
    else WritesBig i s rd (s.big rs1 / r) (s.bigFlags rs1) s.cond) ∧
  BothForms 0x11 4 .divSat .divSatU fun i s rd rs1 r =>
    if r = 0 then WritesBig i s rd (s.cfg.modulus - 1) (s.bigFlags rs1 ||| 0b1000#4) s.cond
    else WritesBig i s rd (s.big rs1 / r) (s.bigFlags rs1) s.cond

/-- R168 to R172: the remainder, or 0 with D; OVF tells the zero divisor in COND.B; on one CHK writes None alone and
UNCHK faults. -/
def Obligations.RemainderOfEveryVariant : Prop :=
  (BothForms 0x12 0 .remWrap .remWrapU fun i s rd rs1 r =>
    if r = 0 then WritesBig i s rd 0 (s.bigFlags rs1 ||| 0b1000#4) s.cond
    else WritesBig i s rd (s.big rs1 % r) (s.bigFlags rs1) s.cond) ∧
  (BothForms 0x12 1 .remOvf .remOvfU fun i s rd rs1 r =>
    if r = 0 then WritesBig i s rd 0 (s.bigFlags rs1 ||| 0b1000#4) { s.cond with b := true }
    else WritesBig i s rd (s.big rs1 % r) (s.bigFlags rs1) { s.cond with b := false }) ∧
  (BothForms 0x12 2 .remChk .remChkU fun i s rd rs1 r =>
    if r = 0 then WritesCond i s { s.cond with none := true }
    else WritesBig i s rd (s.big rs1 % r) (s.bigFlags rs1) { s.cond with none := false }) ∧
  (BothForms 0x12 3 .remUnchk .remUnchkU fun i s rd rs1 r =>
    if r = 0 then Faults i s .uncheckedDivzero
    else WritesBig i s rd (s.big rs1 % r) (s.bigFlags rs1) s.cond) ∧
  BothForms 0x12 4 .remSat .remSatU fun i s rd rs1 r =>
    if r = 0 then WritesBig i s rd 0 (s.bigFlags rs1 ||| 0b1000#4) s.cond
    else WritesBig i s rd (s.big rs1 % r) (s.bigFlags rs1) s.cond

/-- R181, R182, R183: sum, difference and product modulo `m`, exact; modulus 0 gives the sentinel with O, I and D. -/
def Obligations.ModularArithmeticIsExact : Prop :=
  (ModularForm 0x14 .madd fun i s rd rs1 r m =>
    if m = 0 then WritesBig i s rd (s.cfg.modulus - 1) (s.bigFlags rs1 ||| 0b1101#4) s.cond
    else WritesBig i s rd ((s.big rs1 + r) % m) (s.bigFlags rs1) s.cond) ∧
  (ModularForm 0x15 .msub fun i s rd rs1 r m =>
    if m = 0 then WritesBig i s rd (s.cfg.modulus - 1) (s.bigFlags rs1 ||| 0b1101#4) s.cond
    else ∃ x, x < m ∧ (x + r) % m = s.big rs1 % m ∧ WritesBig i s rd x (s.bigFlags rs1) s.cond) ∧
  ModularForm 0x16 .mmul fun i s rd rs1 r m =>
    if m = 0 then WritesBig i s rd (s.cfg.modulus - 1) (s.bigFlags rs1 ||| 0b1101#4) s.cond
    else WritesBig i s rd (s.big rs1 * r % m) (s.bigFlags rs1) s.cond

/-- R184, R185: quotient and remainder of the reduced operands; a zero modulus and a zero reduced divisor each give their
sentinel. -/
def Obligations.ModularDivisionDividesTheReducedOperands : Prop :=
  (ModularForm 0x17 .mdiv fun i s rd rs1 r m =>
    if m = 0 ∨ r % m = 0 then WritesBig i s rd (s.cfg.modulus - 1) (s.bigFlags rs1 ||| 0b1101#4) s.cond
    else WritesBig i s rd (s.big rs1 % m / (r % m)) (s.bigFlags rs1) s.cond) ∧
  ModularForm 0x18 .mrem fun i s rd rs1 r m =>
    if m = 0 then WritesBig i s rd (s.cfg.modulus - 1) (s.bigFlags rs1 ||| 0b1101#4) s.cond
    else if r % m = 0 then WritesBig i s rd 0 (s.bigFlags rs1 ||| 0b1000#4) s.cond
    else WritesBig i s rd (s.big rs1 % m % (r % m)) (s.bigFlags rs1) s.cond

/-- R186: `a^e mod m` with the exponent not reduced, for every exponent. -/
def Obligations.ModularPowerIsTheExactPower : Prop :=
  ModularForm 0x19 .mpow fun i s rd rs1 e m =>
    if m = 0 then WritesBig i s rd (s.cfg.modulus - 1) (s.bigFlags rs1 ||| 0b1101#4) s.cond
    else WritesBig i s rd (s.big rs1 ^ e % m) (s.bigFlags rs1) s.cond

/-- R187: the greatest common divisor; a zero operand is a fault. -/
def Obligations.GcdIsTheGreatestCommonDivisor : Prop :=
  ∀ (s : State) (rd rs1 rs2 : VReg),
    Encodes 0x1A 0 0 rd rs1 rs2 0 0 (.gcd rd rs1 rs2) ∧
    if s.big rs1 = 0 ∨ s.big rs2 = 0 then Faults (.gcd rd rs1 rs2) s .gcdZero
    else
      ∃ g, g ∣ s.big rs1 ∧ g ∣ s.big rs2 ∧ (∀ d, d ∣ s.big rs1 → d ∣ s.big rs2 → d ≤ g) ∧
        WritesBig (.gcd rd rs1 rs2) s rd g (s.bigFlags rs1) s.cond

/-- R202, R203: the true power modulo `M`; OVERFLOW, and in OVF COND.B, iff the true power is not below `M`. -/
def Obligations.PowerWrapsAndReportsOverflow : Prop :=
  (BothForms 0x1C 0 .powWrap .powWrapU fun i s rd rs1 e =>
    WritesBig i s rd (s.big rs1 ^ e % s.cfg.modulus)
      (if s.cfg.modulus ≤ s.big rs1 ^ e then s.bigFlags rs1 ||| 0b0001#4 else s.bigFlags rs1) s.cond) ∧
  BothForms 0x1C 1 .powOvf .powOvfU fun i s rd rs1 e =>
    WritesBig i s rd (s.big rs1 ^ e % s.cfg.modulus)
      (if s.cfg.modulus ≤ s.big rs1 ^ e then s.bigFlags rs1 ||| 0b0001#4 else s.bigFlags rs1)
      { s.cond with b := decide (s.cfg.modulus ≤ s.big rs1 ^ e) }

/-- R204, R205, R206: on overflow CHK writes None alone, UNCHK faults, SAT clamps; else the exact power. -/
def Obligations.PowerCheckedUncheckedSaturating : Prop :=
  (BothForms 0x1C 2 .powChk .powChkU fun i s rd rs1 e =>
    if s.cfg.modulus ≤ s.big rs1 ^ e then WritesCond i s { s.cond with none := true }
    else WritesBig i s rd (s.big rs1 ^ e) (s.bigFlags rs1) { s.cond with none := false }) ∧
  (BothForms 0x1C 3 .powUnchk .powUnchkU fun i s rd rs1 e =>
    if s.cfg.modulus ≤ s.big rs1 ^ e then Faults i s .uncheckedOverflow
    else WritesBig i s rd (s.big rs1 ^ e) (s.bigFlags rs1) s.cond) ∧
  BothForms 0x1C 4 .powSat .powSatU fun i s rd rs1 e =>
    WritesBig i s rd (if s.cfg.modulus ≤ s.big rs1 ^ e then s.cfg.modulus - 1 else s.big rs1 ^ e) (s.bigFlags rs1)
      s.cond

/-- R207, R209: the largest `x` with `x^e ≤ a`, and with `x*x ≤ a`; degree 0 is a fault. -/
def Obligations.RootIsTheFloorRoot : Prop :=
  (BothForms 0x1D 0 .root .rootU fun i s rd rs1 e =>
    if e = 0 then Faults i s .rootZeroExp
    else ∃ x, x ^ e ≤ s.big rs1 ∧ s.big rs1 < (x + 1) ^ e ∧ WritesBig i s rd x (s.bigFlags rs1) s.cond) ∧
  ∀ (s : State) (rd rs1 : VReg),
    Encodes 0x1E 0 0 rd rs1 0 0 0 (.sqrt rd rs1) ∧
    ∃ x, x * x ≤ s.big rs1 ∧ s.big rs1 < (x + 1) * (x + 1) ∧
      WritesBig (.sqrt rd rs1) s rd x (s.bigFlags rs1) s.cond

/-- R222 with R220 and R221: COND.B gets the verdict of the Miller-Rabin rounds, and no register is written. -/
def Obligations.PrimalityVerdictIsMillerRabin : Prop :=
  ∀ (s : State) (rs1 : VReg) (rs2 : SReg),
    Encodes 0x1F 0 0 0 rs1 rs2 0 0 (.isprime rs1 rs2) ∧
    ∃ b, WritesCond (.isprime rs1 rs2) s { s.cond with b := b } ∧ (b = true ↔ ReportedPrime (s.big rs1) (s.scalar rs2))

/-- A prime is reported prime, whatever the number of repetitions: no witness proves a prime composite (46_primality.md). -/
def Obligations.EveryPrimeIsReportedPrime : Prop :=
  ∀ (s : State) (rs1 : VReg) (rs2 : SReg),
    Nat.Prime (s.big rs1) → WritesCond (.isprime rs1 rs2) s { s.cond with b := true }

/-- R241, R242, R243, R244: AND, OR, XOR and NOT bit by bit, with RS1's flags. -/
def Obligations.LogicWorksBitByBit : Prop :=
  ∀ (s : State) (rd rs1 rs2 : VReg),
    (Encodes 0x20 0 0 rd rs1 rs2 0 0 (.bitAnd rd rs1 rs2) ∧
      WritesBits (.bitAnd rd rs1 rs2) s rd (fun j => (s.big rs1).testBit j && (s.big rs2).testBit j) (s.bigFlags rs1)) ∧
    (Encodes 0x21 0 0 rd rs1 rs2 0 0 (.bitOr rd rs1 rs2) ∧
      WritesBits (.bitOr rd rs1 rs2) s rd (fun j => (s.big rs1).testBit j || (s.big rs2).testBit j) (s.bigFlags rs1)) ∧
    (Encodes 0x22 0 0 rd rs1 rs2 0 0 (.bitXor rd rs1 rs2) ∧
      WritesBits (.bitXor rd rs1 rs2) s rd (fun j => (s.big rs1).testBit j ^^ (s.big rs2).testBit j) (s.bigFlags rs1)) ∧
    (Encodes 0x23 0 0 rd rs1 0 0 0 (.bitNot rd rs1) ∧
      WritesBits (.bitNot rd rs1) s rd (fun j => !(s.big rs1).testBit j) (s.bigFlags rs1))

/-- R250, R251: the shifts by any amount, with OVERFLOW or UNDERFLOW iff a 1-bit is lost. -/
def Obligations.ShiftsReportLostBits : Prop :=
  ∀ (s : State) (rd rs1 : VReg) (rs2 : SReg),
    (Encodes 0x24 0 0 rd rs1 rs2 0 0 (.shl rd rs1 rs2) ∧
      WritesBig (.shl rd rs1 rs2) s rd (s.big rs1 * 2 ^ s.scalar rs2 % s.cfg.modulus)
        (if s.cfg.modulus ≤ s.big rs1 * 2 ^ s.scalar rs2 then s.bigFlags rs1 ||| 0b0001#4 else s.bigFlags rs1) s.cond) ∧
    (Encodes 0x25 0 0 rd rs1 rs2 0 0 (.shr rd rs1 rs2) ∧
      WritesBig (.shr rd rs1 rs2) s rd (s.big rs1 / 2 ^ s.scalar rs2)
        (if s.big rs1 % 2 ^ s.scalar rs2 = 0 then s.bigFlags rs1 else s.bigFlags rs1 ||| 0b0010#4) s.cond)

/-- R252, R253: bit `i` moves to bit `(i + k) mod T`, and to bit `(i - k) mod T`, with `k = n mod T`. -/
def Obligations.RotatesMoveEveryBit : Prop :=
  ∀ (s : State) (rd rs1 : VReg) (rs2 : SReg),
    (Encodes 0x26 0 0 rd rs1 rs2 0 0 (.rotl rd rs1 rs2) ∧
      WritesBits (.rotl rd rs1 rs2) s rd
        (fun j => (s.big rs1).testBit ((j + s.cfg.totalBits - s.scalar rs2 % s.cfg.totalBits) % s.cfg.totalBits))
        (s.bigFlags rs1)) ∧
    (Encodes 0x27 0 0 rd rs1 rs2 0 0 (.rotr rd rs1 rs2) ∧
      WritesBits (.rotr rd rs1 rs2) s rd (fun j => (s.big rs1).testBit ((j + s.scalar rs2) % s.cfg.totalBits))
        (s.bigFlags rs1))

/-- R260, R261: the bits in reverse order, and the bytes in reverse order. -/
def Obligations.ReversalsMirrorBitsAndBytes : Prop :=
  ∀ (s : State) (rd rs1 : VReg),
    (Encodes 0x28 0 0 rd rs1 0 0 0 (.revbits rd rs1) ∧
      WritesBits (.revbits rd rs1) s rd (fun j => (s.big rs1).testBit (s.cfg.totalBits - 1 - j)) (s.bigFlags rs1)) ∧
    (Encodes 0x29 0 0 rd rs1 0 0 0 (.bswap rd rs1) ∧
      WritesSwapped (.bswap rd rs1) s rd (s.big rs1) (s.bigFlags rs1))

/-- R262, R263: a copy where the host's byte order matches, a byte swap where it does not. -/
def Obligations.ByteOrderFollowsTheHost : Prop :=
  ∀ (s : State) (rd rs1 : VReg),
    (Encodes 0x2A 0 0 rd rs1 0 0 0 (.tobe rd rs1) ∧
      if s.cfg.hostBigEndian then WritesBig (.tobe rd rs1) s rd (s.big rs1) (s.bigFlags rs1) s.cond
      else WritesSwapped (.tobe rd rs1) s rd (s.big rs1) (s.bigFlags rs1)) ∧
    (Encodes 0x2B 0 0 rd rs1 0 0 0 (.tole rd rs1) ∧
      if s.cfg.hostBigEndian then WritesSwapped (.tole rd rs1) s rd (s.big rs1) (s.bigFlags rs1)
      else WritesBig (.tole rd rs1) s rd (s.big rs1) (s.bigFlags rs1) s.cond)

/-- R271, R272, R273: the 1-bits, the leading zeros `T - bitlen(a)`, and the trailing zeros. -/
def Obligations.BitCountsCountBits : Prop :=
  ∀ (s : State) (rd : SReg) (rs1 : VReg),
    (Encodes 0x2C 0 0 rd rs1 0 0 0 (.popcnt rd rs1) ∧
      WritesScalar (.popcnt rd rs1) s rd (∑ j ∈ Finset.range s.cfg.totalBits, ((s.big rs1).testBit j).toNat)) ∧
    (Encodes 0x2D 0 0 rd rs1 0 0 0 (.clz rd rs1) ∧
      WritesScalar (.clz rd rs1) s rd (s.cfg.totalBits - Nat.size (s.big rs1))) ∧
    (Encodes 0x2E 0 0 rd rs1 0 0 0 (.ctz rd rs1) ∧
      if s.big rs1 = 0 then WritesScalar (.ctz rd rs1) s rd s.cfg.totalBits
      else ∃ k, 2 ^ k ∣ s.big rs1 ∧ ¬ 2 ^ (k + 1) ∣ s.big rs1 ∧ WritesScalar (.ctz rd rs1) s rd k)

/-- R274, R275: the zero words above the top nonzero word, and below the lowest one. -/
def Obligations.WordCountsCountZeroWords : Prop :=
  ∀ (s : State) (rd : SReg) (rs1 : VReg),
    (Encodes 0x2F 0 0 rd rs1 0 0 0 (.clzw rd rs1) ∧
      if s.big rs1 = 0 then WritesScalar (.clzw rd rs1) s rd s.cfg.words
      else ∃ i, i < s.cfg.words ∧ s.word rs1 i ≠ 0 ∧ (∀ j, i < j → j < s.cfg.words → s.word rs1 j = 0) ∧
        WritesScalar (.clzw rd rs1) s rd (s.cfg.words - 1 - i)) ∧
    (Encodes 0x30 0 0 rd rs1 0 0 0 (.ctzw rd rs1) ∧
      if s.big rs1 = 0 then WritesScalar (.ctzw rd rs1) s rd s.cfg.words
      else ∃ i, i < s.cfg.words ∧ s.word rs1 i ≠ 0 ∧ (∀ j, j < i → s.word rs1 j = 0) ∧
        WritesScalar (.ctzw rd rs1) s rd i)

/-- R291, R292, R293, R294: FGET reads the flags, FCLR clears and FSET sets the masked ones and keeps the value, FTEST
tells in COND.B whether a masked one is set. -/
def Obligations.FlagCommandsReadAndWriteFlags : Prop :=
  ∀ (s : State) (rd rs1 : VReg) (k : SReg) (mask : Fin 16),
    let m : Imm4 := BitVec.ofNat 4 mask.val
    (Encodes 0x34 0 0 k rs1 0 0 0 (.fget k rs1) ∧ WritesScalar (.fget k rs1) s k (s.bigFlags rs1).toNat) ∧
    (Encodes 0x36 0 0 rd 0 0 mask 0 (.fclr rd m) ∧
      ∃ f, (∀ j, j < 4 → f.getLsbD j = ((s.bigFlags rd).getLsbD j && !m.getLsbD j)) ∧
        WritesBig (.fclr rd m) s rd (s.big rd) f s.cond) ∧
    (Encodes 0x35 0 0 rd 0 0 mask 0 (.fset rd m) ∧
      ∃ f, (∀ j, j < 4 → f.getLsbD j = ((s.bigFlags rd).getLsbD j || m.getLsbD j)) ∧
        WritesBig (.fset rd m) s rd (s.big rd) f s.cond) ∧
    (Encodes 0x37 0 0 0 rs1 0 mask 0 (.ftest rs1 m) ∧
      ∃ b, (b = true ↔ ∃ j, j < 4 ∧ (s.bigFlags rs1).getLsbD j = true ∧ m.getLsbD j = true) ∧
        WritesCond (.ftest rs1 m) s { s.cond with b := b })

/-- R295: CONDW writes both COND bits from the immediate's low bits; a high bit set is ILLEGAL_FORM. -/
def Obligations.CondwWritesBothCondBits : Prop :=
  ∀ (s : State) (mask : Fin 16),
    let m : Imm4 := BitVec.ofNat 4 mask.val
    if mask.val < 4 then
      Encodes 0x38 0 0 0 0 0 mask 0 (.condw m) ∧
        WritesCond (.condw m) s { b := decide (mask.val % 2 = 1), none := decide (mask.val / 2 % 2 = 1) }
    else decode (fieldWord 0x38 0 0 0 0 0 mask 0) = .error .illegalForm

/-! ### Encoding and decoding -/

/-- The decoder gives every command back from its encoding, with every operand (30_encoding.md, 4 and 5). -/
def Obligations.DecodeOfEncodeIsTheCommand : Prop :=
  ∀ i : Instr, i.wellFormed = true → decode (encode i) = .ok i

/-- Each command form has exactly one bit pattern per choice of its used fields: a word that decodes is its command's
encoding, and the command is well formed (30_encoding.md, 4). -/
def Obligations.EveryCommandHasOneEncoding : Prop :=
  ∀ (c : Word) (i : Instr), decode c = .ok i → encode i = c ∧ i.wellFormed = true

/-- R302: ILLEGAL_OPCODE is raised exactly for the reserved opcodes of R78, whatever the other fields. -/
def Obligations.IllegalOpcodeExactlyForReservedOpcodes : Prop :=
  ∀ c : Word, decode c = .error .illegalOpcode ↔ bitsAt c 26 6 ∈ reservedOpcodes

/-- R303: ILLEGAL_FORM is raised exactly when the opcode is defined and one of the form checks is broken. -/
def Obligations.IllegalFormExactlyForBrokenForms : Prop :=
  ∀ c : Word, decode c = .error .illegalForm ↔ bitsAt c 26 6 ∉ reservedOpcodes ∧ BrokenForm c

/-- Words of 95_test_vectors.md, one or more of each family, decode to their commands. -/
def Obligations.SampleWordsDecode : Prop :=
  decode 0x10080400 = .ok (.vfromu 4 2) ∧ decode 0x22C82400 = .ok (.addCarryU 4 1 2) ∧
  decode 0x3288246A = .ok (.mulCarry 4 5 1 2 3) ∧ decode 0x40024204 = .ok (.divfull 1 2 2 1) ∧
  decode 0x64082460 = .ok (.mpow 4 1 2 3) ∧ decode 0x72482400 = .ok (.powSatU 4 1 2) ∧
  decode 0x7C002400 = .ok (.isprime 1 2) ∧ decode 0x98082400 = .ok (.rotl 4 1 2) ∧
  decode 0xBC082000 = .ok (.clzw 4 1) ∧ decode 0xD8080020 = .ok (.fclr 4 1) ∧ decode 0xE0000060 = .ok (.condw 3)

/-! ### The command cycle and faults -/

/-- A step whose turn is the engine's runs the command in flight, after taking the turn; a word that does not decode takes
its decode fault; with nothing in flight nothing else changes (10_state.md 6, 60_exceptions.md 2). That an empty order is
the engine's turn is the model's choice, log entry 5. -/
def Obligations.StepRunsTheDecodedCommand : Prop :=
  ∀ (s : State) (rest : List Turn), s.order = .engine :: rest ∨ (s.order = [] ∧ rest = []) →
    let s1 : State := { s with order := rest }
    (s.ifc = none → step s = .next s1) ∧
    (∀ c i, s.ifc = some c → decode c = .ok i → step s = exec i s1) ∧
    (∀ c, s.ifc = some c → decode c = .error .illegalOpcode →
      ∃ t, step s = .next t ∧ FaultEntry .illegalOpcode s1 t ∧ t.fcmd = c) ∧
    (∀ c, s.ifc = some c → decode c = .error .illegalForm →
      ∃ t, step s = .next t ∧ FaultEntry .illegalForm s1 t ∧ t.fcmd = c)

/-- R351: a command offered while BUSY or FAULT is discarded whole and sets LOST; else it is accepted (R34). -/
def Obligations.OfferedCommandIsAcceptedOrLost : Prop :=
  ∀ (s : State) (rest : List Turn) (c : Word), s.order = .host (.wrCsr 0 c.toNat) :: rest →
    if s.status.busy = true ∨ s.status.fault = true then
      step s = .next { s with order := rest, status := { s.status with lost := true } }
    else
      step s = .next { s with order := rest, ifc := some c, status := { s.status with busy := true, done := false } }

/-- R301, R304, R305: a well-formed command completes, or faults with the cause R301 gives for its operands and with no
other; a fault leaves V, S and COND as they were. A command no word decodes to raises ILLEGAL_FORM: the model's reading of
R76 and R77, log entry 8. -/
def Obligations.CommandsFaultExactlyAsListed : Prop :=
  ∀ (i : Instr) (s : State),
    ∃ t, exec i s = .next t ∧
      if i.wellFormed then
        match executionFault i s with
        | some c => FaultEntry c s t
        | none => Completed s t
      else FaultEntry .illegalForm s t

/-- R310, R312, R313: FACK clears the record and nothing else; while FAULT = 1 a command is lost, the engine's turn changes
nothing, and host reads and writes go on. -/
def Obligations.FaultHoldsUntilAcknowledged : Prop :=
  ∀ (s : State) (rest : List Turn), ControlInv s →
    (∀ x, x < 2 ^ 32 → x % 2 = 1 → x / 2 % 2 = 0 → s.order = .host (.wrCsr 5 x) :: rest →
      step s = .next { s with order := rest, status := { s.status with fault := false }, cause := .none, fcmd := 0 }) ∧
    (s.status.fault = true →
      (s.order = .engine :: rest → step s = .next { s with order := rest }) ∧
      (∀ c : Word, s.order = .host (.wrCsr 0 c.toNat) :: rest →
        step s = .next { s with order := rest, status := { s.status with lost := true } }) ∧
      (∀ v, s.order = .host (.rdFlags v) :: rest →
        step s = .next { s with order := rest, returned := (s.bigFlags v).toNat :: s.returned }) ∧
      (∀ k x, x < 2 ^ s.cfg.scalarBits → s.order = .host (.wrS k x) :: rest →
        ∃ t, step s = .next t ∧ t.scalar k = x ∧ t.status = s.status ∧ BigsKept s t [] ∧ ScalarsKept s t [k]))

/-- R341, and the values R340 gives: a soft reset clears the control registers and COND, abandons the command in flight and
keeps V and S; a hard reset clears the same. What a hard reset leaves in V and S is unspecified and not stated. -/
def Obligations.ResetsClearTheControlRegisters : Prop :=
  ∀ (s : State) (rest : List Turn) (x : Nat),
    (s.order = .host (.wrCsr 5 x) :: rest ∧ x < 2 ^ 32 ∧ x / 2 % 2 = 1) ∨ s.order = .hardReset :: rest →
    ∃ t, step s = .next t ∧ t.cfg = s.cfg ∧ t.order = rest ∧ t.returned = s.returned ∧
      t.status = { busy := false, fault := false, done := false, lost := false } ∧ t.cause = .none ∧ t.fcmd = 0 ∧
      t.ie = { doneIE := false, faultIE := false } ∧ t.cond = { b := false, none := false } ∧ t.ifc = none ∧
      t.irq = false ∧ (s.order ≠ .hardReset :: rest → BigsKept s t [] ∧ ScalarsKept s t [])

/-- The invariant of the control registers holds at reset. -/
def Obligations.ControlInvariantAtReset : Prop := ControlInv State.reset

/-- Every step, whatever its turn, keeps the relations between STATUS, IFC, CAUSE and FCMD (10_state.md 5 and 6). -/
def Obligations.EveryStepKeepsTheControlInvariant : Prop :=
  ∀ s t : State, ControlInv s → step s = .next t → ControlInv t

/-- R334's last sentence: no step changes the parameters, so CONFIG reads the same in every state of a run. -/
def Obligations.EveryStepKeepsTheConfiguration : Prop := ∀ s t : State, step s = .next t → t.cfg = s.cfg

/-! ### Frames over all commands -/

/-- Every command answers a next state, and leaves alone every register it does not name as a destination, the COND bits
its rule does not write (R27), and every control register but STATUS.BUSY, FAULT and DONE, CAUSE, FCMD and IFC. -/
def Obligations.EveryCommandKeepsWhatItDoesNotName : Prop :=
  ∀ (i : Instr) (s : State), ∃ t, exec i s = .next t ∧ BigsKept s t i.vDests ∧ ScalarsKept s t i.sDests ∧
    (i.writesB = false → t.cond.b = s.cond.b) ∧ (i.writesNone = false → t.cond.none = s.cond.none) ∧
    t.cfg = s.cfg ∧ t.ie = s.ie ∧ t.order = s.order ∧ t.returned = s.returned ∧ t.draws = s.draws ∧ t.ifc = none ∧
    t.status.busy = false ∧ t.status.lost = s.status.lost

/-- R23: a destination of a command that inherits RS1's flags holds all of them afterwards, unless the command faulted or
was a CHK command that answered None, and so wrote nothing; FSET too keeps what was set. -/
def Obligations.FlagsAreSticky : Prop :=
  ∀ (i : Instr) (s t : State), exec i s = .next t →
    (∀ rs1 v, i.self = some rs1 → v ∈ i.vDests →
      s.bigFlags rs1 &&& t.bigFlags v = s.bigFlags rs1 ∨
        (((∃ c, FaultEntry c s t) ∨ (i.checked = true ∧ t.cond.none = true)) ∧ BigsKept s t [])) ∧
    (∀ rd m, i = .fset rd m → s.bigFlags rd &&& t.bigFlags rd = s.bigFlags rd)

/-- R22: a flag that a destination holds and RS1 (for FSET, the register itself) did not was added by a command that R22
lists for that flag. A CHK command that writes nothing, or a fault, keeps the destination's own flags. -/
def Obligations.FlagsAreAddedOnlyAsListed : Prop :=
  ∀ (i : Instr) (s t : State), exec i s = .next t →
    ∀ v, (∀ j, j < 4 → (t.bigFlags v).getLsbD j = true → (s.bigFlags v).getLsbD j = false →
      (∀ rs1, i.self = some rs1 → (s.bigFlags rs1).getLsbD j = false) →
      (j = 0 ∧ mayOverflow i = true) ∨ (j = 1 ∧ mayUnderflow i = true) ∨ (j = 2 ∧ mayBeInfinite i = true) ∨
        (j = 3 ∧ mayDivideByZero i = true))

/-! ### The host port -/

/-- While BUSY = 0, a write of a word in range, of a flag field or of a scalar is read back, and changes nothing else: every
other word, flag field and scalar, COND and every control register is as before; a read returns the unit and changes nothing
else (20_memory.md 2). -/
def Obligations.HostReadsWhatItWrote : Prop :=
  ∀ (s : State) (rest : List Turn), s.status.busy = false →
    (∀ v i w, i < s.cfg.words → w < 2 ^ s.cfg.wordBits → s.order = .host (.wrWord v i w) :: rest →
      ∃ t, step s = .next t ∧ t.word v i = w ∧
        (∀ u j, (u, j) ≠ (v, i) → j < s.cfg.words → t.word u j = s.word u j) ∧
        (∀ u, t.bigFlags u = s.bigFlags u) ∧ ScalarsKept s t [] ∧ OnlyRegistersChange s t rest) ∧
    (∀ v x, x < 16 → s.order = .host (.wrFlags v x) :: rest →
      ∃ t, step s = .next t ∧ (t.bigFlags v).toNat = x ∧ (∀ u, t.big u = s.big u) ∧ BigsKept s t [v] ∧
        ScalarsKept s t [] ∧ OnlyRegistersChange s t rest) ∧
    (∀ k x, x < 2 ^ s.cfg.scalarBits → s.order = .host (.wrS k x) :: rest →
      ∃ t, step s = .next t ∧ t.scalar k = x ∧ BigsKept s t [] ∧ ScalarsKept s t [k] ∧
        OnlyRegistersChange s t rest) ∧
    (∀ v i, i < s.cfg.words → s.order = .host (.rdWord v i) :: rest →
      step s = .next { s with order := rest, returned := s.word v i :: s.returned }) ∧
    (∀ v, s.order = .host (.rdFlags v) :: rest →
      step s = .next { s with order := rest, returned := (s.bigFlags v).toNat :: s.returned }) ∧
    (∀ k, s.order = .host (.rdS k) :: rest →
      step s = .next { s with order := rest, returned := s.scalar k :: s.returned })

/-- R55: while BUSY = 1 a host write of V, S or COND is discarded, a read of one returns some value of the unit's width,
which nothing fixes, and both set LOST; nothing else changes. The form of that value, and for COND its two bits alone, are
the model's choice: log entries 4 and 12. -/
def Obligations.BusyHostAccessIsDiscarded : Prop :=
  ∀ (s : State) (rest : List Turn), s.status.busy = true →
    (∀ op, s.order = .host op :: rest →
      ((∃ v i w, op = .wrWord v i w ∧ w < 2 ^ s.cfg.wordBits) ∨ (∃ v x, op = .wrFlags v x ∧ x < 16) ∨
        (∃ k x, op = .wrS k x ∧ x < 2 ^ s.cfg.scalarBits) ∨ (∃ x, op = .wrCsr 6 x ∧ x < 2 ^ 32)) →
      step s = .next { s with order := rest, status := { s.status with lost := true } }) ∧
    (∀ op n, s.order = .host op :: rest →
      ((∃ v i, op = .rdWord v i ∧ n = s.cfg.wordBits) ∨ (∃ v, op = .rdFlags v ∧ n = 4) ∨
        (∃ k, op = .rdS k ∧ n = s.cfg.scalarBits) ∨ (op = .rdCsr 6 ∧ n = 2)) →
      ∃ t x, step s = .next t ∧ x < 2 ^ n ∧ t.returned = x :: s.returned ∧ t.status.lost = true ∧ OnlyHostSees s t rest)

/-- R54: a word index past the last word is discarded on a write, returns some word on a read, and sets LOST, also while
BUSY: one discard, the model's reading, log entry 13. The form of the value read is the model's choice, log entry 4. -/
def Obligations.WordIndexOutOfRangeIsLost : Prop :=
  ∀ (s : State) (rest : List Turn) (v : VReg) (i : Nat), s.cfg.words ≤ i →
    (∀ w, w < 2 ^ s.cfg.wordBits → s.order = .host (.wrWord v i w) :: rest →
      step s = .next { s with order := rest, status := { s.status with lost := true } }) ∧
    (s.order = .host (.rdWord v i) :: rest →
      ∃ t x, step s = .next t ∧ x < 2 ^ s.cfg.wordBits ∧ t.returned = x :: s.returned ∧ t.status.lost = true ∧
        OnlyHostSees s t rest)

/-- Reading a control register returns its word: R29, R30, R32, R33, R26; CMD, CTRL and the reserved numbers read 0 (R28).
COND is read while BUSY = 0. -/
def Obligations.ControlRegistersReadAsTheirWords : Prop :=
  ∀ (s : State) (rest : List Turn) (c : Nat), s.order = .host (.rdCsr c) :: rest → (c = 6 → s.status.busy = false) →
    ∃ x, step s = .next { s with order := rest, returned := x :: s.returned } ∧ x < 2 ^ 32 ∧
      (c = 1 → x.testBit 0 = s.status.busy ∧ x.testBit 1 = s.status.fault ∧ x.testBit 2 = s.status.done ∧
        x.testBit 3 = s.status.lost ∧ x < 16) ∧
      (c = 2 → [.none, .illegalOpcode, .illegalForm, .uncheckedOverflow, .uncheckedUnderflow, .uncheckedDivzero,
        .gcdZero, .rootZeroExp][x]? = some s.cause) ∧
      (c = 3 → x = s.fcmd.toNat) ∧
      (c = 4 → x.testBit 0 = s.ie.doneIE ∧ x.testBit 1 = s.ie.faultIE ∧ x < 4) ∧
      (c = 6 → x.testBit 0 = s.cond.b ∧ x.testBit 1 = s.cond.none ∧ x < 4) ∧
      (c = 7 → x % 256 = s.cfg.wordBits % 256 ∧ x / 256 % 65536 = s.cfg.words ∧
        x.testBit 24 = s.cfg.hostBigEndian ∧ x < 2 ^ 25) ∧
      (c = 0 ∨ c = 5 ∨ 8 ≤ c → x = 0)

/-- Writing a control register: STATUS clears DONE and LOST where the written bit is 1 and nothing else (R29), IE and COND
take bits 1:0 (R32, R26), a write of CTRL with bits 1:0 both 0 has no effect, whatever bits 31:2 hold (R35), and the
read-only and reserved numbers ignore the write (R28). -/
def Obligations.ControlRegisterWrites : Prop :=
  ∀ (s : State) (rest : List Turn) (c x : Nat), s.order = .host (.wrCsr c x) :: rest → x < 2 ^ 32 →
    (c = 1 → step s = .next { s with order := rest, status := { s.status with
      done := s.status.done && !x.testBit 2, lost := s.status.lost && !x.testBit 3 } }) ∧
    (c = 4 → step s = .next { s with order := rest, ie := { doneIE := x.testBit 0, faultIE := x.testBit 1 } }) ∧
    (c = 6 → s.status.busy = false →
      step s = .next { s with order := rest, cond := { b := x.testBit 0, none := x.testBit 1 } }) ∧
    (c = 5 → x.testBit 0 = false → x.testBit 1 = false → step s = .next { s with order := rest }) ∧
    (c = 2 ∨ c = 3 ∨ c = 7 ∨ 8 ≤ c → step s = .next { s with order := rest })

/-- R322 with R320: a completion raises IRQ iff DONE_IE is set, a fault iff FAULT_IE is set; a DONE interrupt clears when
the host writes 1 to DONE, offers the next command, or clears DONE_IE, and a FAULT interrupt on FACK or when FAULT_IE is
cleared. -/
def Obligations.InterruptFollowsDoneAndFault : Prop :=
  (∀ (i : Instr) (s t : State), ControlInv s → s.status.busy = true → exec i s = .next t →
    (Completed s t → t.irq = s.ie.doneIE) ∧ (∀ c, FaultEntry c s t → t.irq = s.ie.faultIE)) ∧
  (∀ (s t : State) (rest : List Turn) (c x : Nat), ControlInv s → s.order = .host (.wrCsr c x) :: rest → x < 2 ^ 32 →
    step s = .next t →
    (s.status.fault = false →
      (c = 1 ∧ x.testBit 2 = true) ∨ (c = 4 ∧ x.testBit 0 = false) ∨ (c = 0 ∧ s.status.busy = false) →
      t.irq = false) ∧
    (s.status.fault = true → (c = 5 ∧ x.testBit 0 = true) ∨ (c = 4 ∧ x.testBit 1 = false) → t.irq = false))

/-! ### The reference algorithms -/

/-- R120: the word-serial carry and borrow chains compute the whole-value sum and difference, with the carry and borrow out
of the top word. -/
def Obligations.CarryChainsComputeSumAndDifference : Prop :=
  ∀ (b n a r : Nat) (c : Bool), a < 2 ^ (b * n) → r < 2 ^ (b * n) →
    addChain b n a r c = addCarry (2 ^ (b * n)) a r c ∧ subChain b n a r c = subBorrow (2 ^ (b * n)) a r c

/-- R141, R142 against R140: schoolbook multiplication gives the exact product, and the configured multiplier, whichever
algorithm it selects, gives the low half. -/
def Obligations.BothMultipliersComputeTheProduct : Prop :=
  (∀ b n a k r : Nat, a < 2 ^ (b * n) → r < 2 ^ (b * k) → schoolbook b n a k r = a * r) ∧
  ∀ (c : Config) (a r : Nat), a < c.modulus → r < c.modulus → multiplierLow c a r = (mulFull c.modulus a r 0).1

/-- R161 against R160: bit-serial restoring division gives the quotient and the remainder. -/
def Obligations.RestoringDivisionComputesQuotientAndRemainder : Prop :=
  ∀ a r : Nat, 0 < r → r ≤ a → restoringDivide a r = (a / r, a % r)

/-- R188 against R183: double-and-add reduction gives the exact product modulo `m`. -/
def Obligations.DoubleAndAddReductionComputesTheModularProduct : Prop :=
  ∀ m t a r : Nat, 0 < m → r < 2 ^ t → modularDoubleAndAdd m t 0 (a % m) r = a * r % m

/-- R254 against R250: for an amount below the total width, every word of SHL's result is the shifted word below it with
the spill of the word under that. -/
def Obligations.WordShifterComputesTheLeftShift : Prop :=
  ∀ (c : Config) (a n i : Nat), a < c.modulus → n < c.totalBits → i < c.words →
    wordAt c.wordBits (shiftLeft c.totalBits a n).1 i = shiftedWord c.wordBits a n i

/-! ### Laws of R264 and R173 on two commands -/

/-- A rotate left and then a rotate right by the same scalar give the value back with its flags (R264), and a quotient and
remainder by DIVFULL rebuild the dividend (R173), whatever registers hold them. -/
def Obligations.InverseCommandsRestoreTheValue : Prop :=
  ∀ (s t u : State) (rd rd2 rs1 rs2 : VReg) (k : SReg),
    (exec (.rotl rd rs1 k) s = .next t → exec (.rotr rd2 rd k) t = .next u →
      u.big rd2 = s.big rs1 ∧ u.bigFlags rd2 = s.bigFlags rs1) ∧
    (rd ≠ rd2 → s.big rs2 ≠ 0 → exec (.divfull rd rd2 rs1 rs2) s = .next t →
      t.big rd * s.big rs2 + t.big rd2 = s.big rs1 ∧ t.big rd2 < s.big rs2)
end

