-- ==== Sys2Proof/Laws/Arith.lean ====
section
/-! SUPPORT. What each function of the datapath computes, in the spec's own formulas. -/

namespace Sys2Proof.Machine

/-! ### Powers and roots (R186, R200, R207) -/

theorem lt_two_pow_bitLen (x : Nat) : x < 2 ^ bitLen x := by
  unfold bitLen
  split
  · next h => subst h; simp
  · exact Nat.lt_log2_self

theorem two_pow_le_of_bitLen {x k : Nat} (h : bitLen x = k + 1) : 2 ^ k ≤ x := by
  unfold bitLen at h
  split at h
  · simp at h
  · next hx =>
    have : Nat.log2 x = k := by omega
    exact this ▸ Nat.log2_self_le hx

theorem bitLen_le_of_lt {x t : Nat} (h : x < 2 ^ t) : bitLen x ≤ t := by
  unfold bitLen
  split
  · exact Nat.zero_le _
  · next hx => exact (Nat.log2_lt hx).2 h

/-- A larger power of the same base, with an exact prefix. -/
theorem powLoop_eq {m a : Nat} (hm : 1 < m) (n e : Nat) (h : e < 2 ^ n) :
    powLoop m a n e = (a ^ e % m, decide (m ≤ a ^ e)) := by
  induction n generalizing e with
  | zero =>
    obtain rfl : e = 0 := by simpa using h
    simp [powLoop, Nat.mod_eq_of_lt hm, hm]
  | succ n ih =>
    have hk : e / 2 < 2 ^ n := by rw [Nat.pow_succ] at h; omega
    have hsq : a ^ (e / 2) % m * (a ^ (e / 2) % m) % m = a ^ (e / 2) * a ^ (e / 2) % m := by
      rw [← Nat.mul_mod]
    have ihk := ih (e / 2) hk
    simp only [powLoop, ihk]
    have hee : e = 2 * (e / 2) + e % 2 := by omega
    generalize e / 2 = k at *
    generalize hy : a ^ k = y at *
    -- the overflow of the square is exact once the prefix did not overflow
    have hov : (decide (m ≤ y) || decide (m ≤ y % m * (y % m))) = decide (m ≤ y * y) := by
      by_cases c : m ≤ y
      · have : m ≤ y * y := le_trans c (Nat.le_mul_of_pos_left y (by omega))
        simp [c, this]
      · rw [Nat.mod_eq_of_lt (by omega : y < m)]; simp [c]
    by_cases hodd : e % 2 = 1
    · have he : a ^ e = y * y * a := by
        rw [← hy, ← pow_add, ← pow_succ]; congr 1; omega
      have hv : y % m * (y % m) % m * a % m = y * y * a % m := by
        rw [hsq, Nat.mod_mul_mod]
      simp only [if_pos hodd, he, Prod.mk.injEq]
      refine ⟨hv, ?_⟩
      rw [hov]
      by_cases c : m ≤ y * y
      · rcases Nat.eq_zero_or_pos a with ha | ha
        · subst ha
          rcases Nat.eq_zero_or_pos k with hk0 | hk0
          · rw [← hy, hk0] at c; simp at c; omega
          · rw [← hy, zero_pow (by omega)] at c; omega
        · have : m ≤ y * y * a := le_trans c (Nat.le_mul_of_pos_right _ ha)
          simp [c, this]
      · have hlt : y * y < m := by omega
        rw [hsq, Nat.mod_eq_of_lt hlt]; simp [c]
    · have he : a ^ e = y * y := by
        rw [← hy, ← pow_add]; congr 1; omega
      simp only [if_neg hodd, he, Prod.mk.injEq]
      exact ⟨hsq, hov⟩

theorem powOverflow_eq {m : Nat} (hm : 1 < m) (a e : Nat) :
    powOverflow m a e = (a ^ e % m, decide (m ≤ a ^ e)) := powLoop_eq hm _ _ (lt_two_pow_bitLen e)

theorem powModLoop_eq (m a n e : Nat) (h : e < 2 ^ n) : powModLoop m a n e = a ^ e % m := by
  induction n generalizing e with
  | zero =>
    obtain rfl : e = 0 := by simpa using h
    simp [powModLoop]
  | succ n ih =>
    have hk : e / 2 < 2 ^ n := by rw [Nat.pow_succ] at h; omega
    simp only [powModLoop, ih _ hk]
    have hsq : a ^ (e / 2) % m * (a ^ (e / 2) % m) % m = a ^ (e / 2) * a ^ (e / 2) % m := by rw [← Nat.mul_mod]
    by_cases hodd : e % 2 = 1
    · rw [if_pos hodd, hsq, Nat.mod_mul_mod, ← pow_add, ← pow_succ]; congr 2; omega
    · rw [if_neg hodd, hsq, ← pow_add]; congr 2; omega

theorem powMod_eq (m a e : Nat) : powMod m a e = a ^ e % m := powModLoop_eq m a _ _ (lt_two_pow_bitLen e)

/-- The search keeps `res` a multiple of the bit under trial, with its power at most `a`, and the root below `res + 2^k`. -/
theorem rootLoop_spec {m a e : Nat} (hm : 1 < m) (ham : a < m) (he : 1 ≤ e) (k res : Nat)
    (lo : res ^ e ≤ a) (hi : a < (res + 2 ^ k) ^ e) :
    rootLoop m a e k res ^ e ≤ a ∧ a < (rootLoop m a e k res + 1) ^ e := by
  induction k generalizing res with
  | zero => exact ⟨by simpa [rootLoop] using lo, by simpa [rootLoop] using hi⟩
  | succ k ih =>
    have hs : res + 2 ^ (k + 1) = res + 2 ^ k + 2 ^ k := by rw [pow_succ]; omega
    rw [hs] at hi
    simp only [rootLoop, powOverflow_eq hm]
    set c := res + 2 ^ k with hc
    by_cases hov : m ≤ c ^ e
    · have : a < c ^ e := lt_of_lt_of_le ham hov
      simpa [hov] using ih res lo (by rwa [← hc])
    · have hmod : c ^ e % m = c ^ e := Nat.mod_eq_of_lt (by omega)
      simp only [hov, decide_false, Bool.not_false, Bool.true_and, hmod, beq_iff_eq, decide_eq_true_eq]
      split
      · next heq =>
        refine ⟨heq.le, ?_⟩
        rw [← heq]; exact Nat.pow_lt_pow_left (Nat.lt_succ_self _) (by omega)
      · split
        · next hlt => exact ih c hlt.le hi
        · next hne hnlt => exact ih res lo (by rw [← hc]; omega)

theorem iroot_spec {m a e : Nat} (hm : 1 < m) (ham : a < m) (he : 1 ≤ e) :
    iroot m a e ^ e ≤ a ∧ a < (iroot m a e + 1) ^ e := by
  unfold iroot
  split
  · next h => subst h; simp [zero_pow (by omega : e ≠ 0)]
  · refine rootLoop_spec hm ham he _ 0 (by simp [zero_pow (by omega : e ≠ 0)]) ?_
    rw [zero_add, ← pow_mul]
    refine lt_of_lt_of_le (lt_two_pow_bitLen a) (Nat.pow_le_pow_right (by decide) ?_)
    have := Nat.div_add_mod (bitLen a + e - 1) e
    have := Nat.mod_lt (bitLen a + e - 1) (by omega : 0 < e)
    rw [mul_comm]; omega

theorem iroot_le {m a e : Nat} (hm : 1 < m) (ham : a < m) (he : 1 ≤ e) : iroot m a e ≤ a :=
  le_trans (Nat.le_self_pow (by omega) _) (iroot_spec hm ham he).1

/-! ### Subtraction, shifts, rotates, byte order and counts -/

theorem subBorrow_borrow {m a r : Nat} {bin : Bool} (hr : r < m) (h : a < r + bin.toNat) :
    subBorrow m a r bin = (a + m - (r + bin.toNat), true) := by
  have hb : bin.toNat ≤ 1 := by cases bin <;> decide
  have e : ((a : Int) - r - bin.toNat) % (m : Int) = ((a + m - (r + bin.toNat) : Nat) : Int) := by
    rw [← Int.add_emod_right, Int.emod_eq_of_lt (by omega) (by omega)]; omega
  simp only [subBorrow, e, Int.toNat_natCast, Prod.mk.injEq, decide_eq_true_eq, true_and]
  omega

theorem subBorrow_exact {m a r : Nat} {bin : Bool} (ha : a < m) (h : ¬ a < r + bin.toNat) :
    subBorrow m a r bin = (a - (r + bin.toNat), false) := by
  have e : ((a : Int) - r - bin.toNat) % (m : Int) = ((a - (r + bin.toNat) : Nat) : Int) := by
    rw [Int.emod_eq_of_lt (by omega) (by omega)]; omega
  simp only [subBorrow, e, Int.toNat_natCast, Prod.mk.injEq, decide_eq_false_iff_not, true_and]
  omega

theorem shiftLeft_eq (t a n : Nat) : shiftLeft t a n = (a * 2 ^ n % 2 ^ t, decide (2 ^ t ≤ a * 2 ^ n)) := by
  unfold shiftLeft
  split
  · next h =>
    have hd : 2 ^ t ∣ a * 2 ^ n := Dvd.dvd.mul_left (Nat.pow_dvd_pow 2 h) a
    rw [Nat.mod_eq_zero_of_dvd hd]
    by_cases ha : a = 0
    · subst ha; simp
    · have hle : 2 ^ t ≤ a * 2 ^ n := Nat.le_of_dvd (by positivity) hd
      simp [ha, hle]
  · rfl

theorem shiftRight_eq {t a : Nat} (n : Nat) (ha : a < 2 ^ t) :
    shiftRight t a n = (a / 2 ^ n, decide (a % 2 ^ n ≠ 0)) := by
  unfold shiftRight
  split
  · next h =>
    have hlt : a < 2 ^ n := lt_of_lt_of_le ha (Nat.pow_le_pow_right (by decide) h)
    rw [Nat.div_eq_of_lt hlt, Nat.mod_eq_of_lt hlt]
    by_cases h0 : a = 0 <;> simp [h0]
  · by_cases h0 : a % 2 ^ n = 0 <;> simp [h0]

theorem rotateLeft_lt {t a : Nat} (n : Nat) (ha : a < 2 ^ t) : rotateLeft t a n < 2 ^ t :=
  Nat.or_lt_two_pow (Nat.mod_lt _ (by positivity)) (lt_of_le_of_lt (Nat.div_le_self _ _) ha)

theorem rotateRight_lt {t a : Nat} (n : Nat) (ha : a < 2 ^ t) : rotateRight t a n < 2 ^ t :=
  Nat.or_lt_two_pow (lt_of_le_of_lt (Nat.div_le_self _ _) ha) (Nat.mod_lt _ (by positivity))

theorem testBit_rotateLeft {t a n i : Nat} (ha : a < 2 ^ t) (hi : i < t) :
    (rotateLeft t a n).testBit i = a.testBit ((i + t - n % t) % t) := by
  have hk : n % t < t := Nat.mod_lt _ (by omega)
  have hhigh : ∀ j, t ≤ j → a.testBit j = false := fun j hj =>
    Nat.testBit_lt_two_pow (lt_of_lt_of_le ha (Nat.pow_le_pow_right (by decide) hj))
  simp only [rotateLeft, Nat.testBit_or, Nat.testBit_mod_two_pow, Nat.testBit_mul_two_pow, Nat.testBit_div_two_pow, hi, decide_true, Bool.true_and]
  by_cases c : n % t ≤ i
  · rw [show i + t - n % t = i - n % t + t by omega, Nat.add_mod_right, Nat.mod_eq_of_lt (by omega : i - n % t < t)]
    simp [c, hhigh (i + (t - n % t)) (by omega)]
  · rw [Nat.mod_eq_of_lt (by omega : i + t - n % t < t)]
    simp only [c, decide_false, Bool.false_and, Bool.false_or]
    congr 1; omega

theorem testBit_rotateRight {t a n i : Nat} (ha : a < 2 ^ t) (hi : i < t) :
    (rotateRight t a n).testBit i = a.testBit ((i + n) % t) := by
  have hk : n % t < t := Nat.mod_lt _ (by omega)
  have hhigh : ∀ j, t ≤ j → a.testBit j = false := fun j hj =>
    Nat.testBit_lt_two_pow (lt_of_lt_of_le ha (Nat.pow_le_pow_right (by decide) hj))
  simp only [rotateRight, Nat.testBit_or, Nat.testBit_mod_two_pow, Nat.testBit_mul_two_pow, Nat.testBit_div_two_pow, hi, decide_true, Bool.true_and]
  have e : (i + n) % t = (i + n % t) % t := by simp
  rw [e]
  by_cases c : i + n % t < t
  · rw [Nat.mod_eq_of_lt c]
    have : ¬ t - n % t ≤ i := by omega
    simp [this]
  · rw [Nat.mod_eq_sub_mod (a := i + n % t) (by omega), Nat.mod_eq_of_lt (by omega : i + n % t - t < t)]
    have : t - n % t ≤ i := by omega
    simp only [this, decide_true, Bool.true_and, hhigh (i + n % t) (by omega), Bool.false_or]
    congr 1; omega

theorem reverseBits_lt (t a : Nat) : reverseBits t a < 2 ^ t := by
  induction t generalizing a with
  | zero => simp [reverseBits]
  | succ t ih =>
    have := ih (a / 2)
    have h2 : a % 2 < 2 := Nat.mod_lt _ (by decide)
    rw [reverseBits, pow_succ]
    rcases Nat.lt_or_ge (a % 2) 1 with h | h
    · rw [show a % 2 = 0 by omega]; omega
    · rw [show a % 2 = 1 by omega]; omega

theorem testBit_reverseBits {t a i : Nat} (hi : i < t) : (reverseBits t a).testBit i = a.testBit (t - 1 - i) := by
  induction t generalizing a with
  | zero => omega
  | succ t ih =>
    rw [reverseBits, mul_comm, Nat.testBit_two_pow_mul_add _ (reverseBits_lt t _)]
    split
    · next h =>
      rw [ih h, show t + 1 - 1 - i = t - 1 - i + 1 by omega, Nat.testBit_succ]
    · next h =>
      rw [show i = t by omega]; simp

theorem swapBytes_lt (l a : Nat) : swapBytes l a < 256 ^ l := by
  induction l generalizing a with
  | zero => simp [swapBytes]
  | succ l ih =>
    have := ih (a / 256)
    have h2 : a % 256 + 1 ≤ 256 := Nat.mod_lt _ (by decide)
    have h3 := Nat.mul_le_mul_right (256 ^ l) h2
    rw [swapBytes, pow_succ]; rw [Nat.add_mul] at h3; omega

theorem byte_swapBytes {l a j : Nat} (hj : j < l) :
    swapBytes l a / 256 ^ j % 256 = a / 256 ^ (l - 1 - j) % 256 := by
  induction l generalizing a with
  | zero => omega
  | succ l ih =>
    rw [swapBytes]
    rcases Nat.lt_or_ge j l with h | h
    · rw [show l + 1 - 1 - j = l - 1 - j + 1 by omega, pow_succ', ← Nat.div_div_eq_div_mul, ← ih h]
      obtain ⟨d, rfl⟩ : ∃ d, l = j + 1 + d := ⟨l - (j + 1), by omega⟩
      rw [show a % 256 * 256 ^ (j + 1 + d) = 256 ^ j * (256 * (a % 256 * 256 ^ d)) by ring,
        Nat.mul_add_div (by positivity), Nat.mul_add_mod]
    · rw [show j = l by omega, show l + 1 - 1 - l = 0 by omega, mul_comm, Nat.mul_add_div (by positivity),
        Nat.div_eq_of_lt (swapBytes_lt l _)]; simp

theorem popCount_eq (t a : Nat) : popCount t a = ∑ i ∈ Finset.range t, (a.testBit i).toNat := by
  induction t generalizing a with
  | zero => simp [popCount]
  | succ t ih =>
    rw [popCount, ih, Finset.sum_range_succ', add_comm]
    congr 1
    · exact Finset.sum_congr rfl fun i _ => by rw [Nat.testBit_succ]
    · rw [Nat.testBit_zero]; rcases Nat.mod_two_eq_zero_or_one a with h | h <;> simp [h]

theorem popCount_le (t a : Nat) : popCount t a ≤ t := by
  induction t generalizing a with
  | zero => simp [popCount]
  | succ t ih => have := ih (a / 2); have := Nat.mod_lt a (by decide : 2 > 0); rw [popCount]; omega

theorem trailingZeros_le (t a : Nat) : trailingZeros t a ≤ t := by
  induction t generalizing a with
  | zero => simp [trailingZeros]
  | succ t ih => have := ih (a / 2); rw [trailingZeros]; split <;> omega

theorem trailingZeros_zero (t : Nat) : trailingZeros t 0 = t := by
  induction t with
  | zero => rfl
  | succ t ih => simp [trailingZeros, ih]

theorem trailingZeros_spec {t a : Nat} (ha : a < 2 ^ t) (h0 : a ≠ 0) :
    2 ^ trailingZeros t a ∣ a ∧ ¬ 2 ^ (trailingZeros t a + 1) ∣ a := by
  induction t generalizing a with
  | zero => simp at ha; omega
  | succ t ih =>
    rw [trailingZeros]
    split
    · next h => exact ⟨by simp, by simp [Nat.dvd_iff_mod_eq_zero, h]⟩
    · next h =>
      have h2 : a = 2 * (a / 2) := by omega
      have := ih (a := a / 2) (by rw [pow_succ] at ha; omega) (by omega)
      constructor
      · rw [h2, pow_succ']; simpa using Nat.mul_dvd_mul_left 2 this.1
      · rw [h2, pow_succ' 2 (trailingZeros t (2 * (a / 2) / 2) + 1)]
        intro hd
        rw [Nat.mul_div_cancel_left _ (by decide : 0 < 2)] at hd
        exact this.2 (Nat.dvd_of_mul_dvd_mul_left (by decide) hd)

theorem leadingZeroWords_le (b n a : Nat) : leadingZeroWords b n a ≤ n := by
  induction n with
  | zero => simp [leadingZeroWords]
  | succ n ih => rw [leadingZeroWords]; split <;> omega

/-- The words above the answer are zero, and the word at it, if any, is not. -/
theorem leadingZeroWords_spec (b n a : Nat) :
    (∀ i, n - leadingZeroWords b n a ≤ i → i < n → a / 2 ^ (b * i) % 2 ^ b = 0) ∧
      (leadingZeroWords b n a < n → a / 2 ^ (b * (n - 1 - leadingZeroWords b n a)) % 2 ^ b ≠ 0) := by
  induction n with
  | zero => simp [leadingZeroWords]
  | succ n ih =>
    rw [leadingZeroWords]
    split
    · next h =>
      refine ⟨fun i hi hin => ?_, fun hlt => ?_⟩
      · rcases Nat.lt_or_ge i n with c | c
        · exact ih.1 i (by omega) c
        · rw [show i = n by omega]; exact h
      · have := ih.2 (by omega)
        rwa [show n + 1 - 1 - (leadingZeroWords b n a + 1) = n - 1 - leadingZeroWords b n a by omega]
    · next h => exact ⟨fun i hi hin => by omega, fun _ => by simpa using h⟩

theorem trailingZeroWords_le (b n a : Nat) : trailingZeroWords b n a ≤ n := by
  induction n generalizing a with
  | zero => simp [trailingZeroWords]
  | succ n ih => have := ih (a / 2 ^ b); rw [trailingZeroWords]; split <;> omega

theorem word_div (b i a : Nat) : a / 2 ^ b / 2 ^ (b * i) = a / 2 ^ (b * (i + 1)) := by
  rw [Nat.div_div_eq_div_mul, ← pow_add]; congr 2; ring

theorem trailingZeroWords_spec (b n a : Nat) :
    (∀ i, i < trailingZeroWords b n a → a / 2 ^ (b * i) % 2 ^ b = 0) ∧
      (trailingZeroWords b n a < n → a / 2 ^ (b * trailingZeroWords b n a) % 2 ^ b ≠ 0) := by
  induction n generalizing a with
  | zero => simp [trailingZeroWords]
  | succ n ih =>
    rw [trailingZeroWords]
    split
    · next h =>
      have hi := ih (a / 2 ^ b)
      refine ⟨fun i hlt => ?_, fun hlt => ?_⟩
      · cases i with
        | zero => simpa using h
        | succ i => rw [← word_div]; exact hi.1 i (by omega)
      · rw [← word_div]; exact hi.2 (by omega)
    · next h => exact ⟨fun i hi => by omega, fun _ => by simpa using h⟩

/-! ### The primality loops -/

theorem stripTwos_value (fuel d s : Nat) :
    (stripTwos fuel d s).1 * 2 ^ (stripTwos fuel d s).2 = d * 2 ^ s := by
  induction fuel generalizing d s with
  | zero => rfl
  | succ fuel ih =>
    rw [stripTwos]
    split
    · next h => rw [ih, pow_succ', ← mul_assoc, Nat.div_mul_cancel (Nat.dvd_of_mod_eq_zero h)]
    · rfl

theorem stripTwos_odd {fuel d : Nat} (s : Nat) (h0 : d ≠ 0) (hd : d < 2 ^ fuel) : (stripTwos fuel d s).1 % 2 = 1 := by
  induction fuel generalizing d s with
  | zero => simp at hd; omega
  | succ fuel ih =>
    rw [stripTwos]
    split
    · next h => exact ih _ (by omega) (by rw [pow_succ] at hd; omega)
    · next h => simpa using h

theorem squaringsReach_iff (n t x : Nat) :
    squaringsReach n t x = true ↔ ∃ j, j < t ∧ x ^ 2 ^ (j + 1) % n = n - 1 := by
  induction t generalizing x with
  | zero => simp [squaringsReach]
  | succ t ih =>
    have hpow (j : Nat) : (x * x % n) ^ 2 ^ (j + 1) % n = x ^ 2 ^ (j + 1 + 1) % n := by
      rw [← Nat.pow_mod, ← pow_two, ← pow_mul, ← pow_succ']
    simp only [squaringsReach, Bool.or_eq_true, beq_iff_eq, ih, hpow]
    constructor
    · rintro (h | ⟨j, hj, h⟩)
      · exact ⟨0, by omega, by simpa [pow_two] using h⟩
      · exact ⟨j + 1, by omega, h⟩
    · rintro ⟨j, hj, h⟩
      cases j with
      | zero => left; simpa [pow_two] using h
      | succ j => exact .inr ⟨j, by omega, h⟩

theorem witnessesPass_iff (n d s reps k : Nat) :
    witnessesPass n d s reps k = true ↔ ∀ j, j < reps → witnessPasses n d s (k + j) = true := by
  induction reps generalizing k with
  | zero => simp [witnessesPass]
  | succ reps ih =>
    simp only [witnessesPass, Bool.and_eq_true, ih]
    constructor
    · rintro ⟨h0, h⟩ j hj
      cases j with
      | zero => simpa using h0
      | succ j => rw [show k + (j + 1) = k + 1 + j by omega]; exact h j (by omega)
    · intro h
      exact ⟨by simpa using h 0 (by omega), fun j hj => by
        rw [show k + 1 + j = k + (j + 1) by omega]; exact h (j + 1) (by omega)⟩

/-- One round, for a witness that `n` does not divide: the first power is 1, or one of the powers is `n - 1`. -/
theorem witnessPasses_iff {n d s k : Nat} (hs : 0 < s) :
    witnessPasses n d s k = true ↔
      witness k % n = 0 ∨ witness k ^ d % n = 1 ∨ ∃ j, j < s ∧ witness k ^ (d * 2 ^ j) % n = n - 1 := by
  unfold witnessPasses
  split
  · next h => simp [h]
  · next w h =>
    have hw : powMod n (w + 1) d = witness k ^ d % n := by rw [powMod_eq, ← Nat.succ_eq_add_one, ← h, ← Nat.pow_mod]
    have hpow (j : Nat) : (witness k ^ d % n) ^ 2 ^ (j + 1) % n = witness k ^ (d * 2 ^ (j + 1)) % n := by
      rw [← Nat.pow_mod, ← pow_mul]
    simp only [hw, Bool.or_eq_true, beq_iff_eq, squaringsReach_iff, hpow, h]
    constructor
    · rintro ((h1 | h1) | ⟨j, hj, h1⟩)
      · exact .inr (.inl h1)
      · exact .inr (.inr ⟨0, hs, by simpa using h1⟩)
      · exact .inr (.inr ⟨j + 1, by omega, h1⟩)
    · rintro (h1 | h1 | ⟨j, hj, h1⟩)
      · omega
      · exact .inl (.inl h1)
      · cases j with
        | zero => exact .inl (.inr (by simpa using h1))
        | succ j => exact .inr ⟨j, by omega, h1⟩

end Sys2Proof.Machine
end

