-- ==== Sys2Proof/Laws/Decode.lean ====
section
/-! SUPPORT. The fields of a word made of fields are those fields, so decoding such a word is decoding its fields. -/

namespace Sys2Proof.Laws

/-- No field of R70 overlaps another. -/
theorem fieldsOf_word (f : Fields) : fieldsOf f.word = f := by
  obtain ⟨op, var, u, r21, rd, rs1, rs2, rs3, rd2, r0⟩ := f
  cases u <;> cases r21 <;> cases r0 <;>
    (simp only [fieldsOf, Fields.word, opcodeOf, variantOf, wordBit, wordField4, Fields.mk.injEq, Fin.ext_iff,
      Fin.val_ofNat, BitVec.toNat_ofNat, Bool.toNat, cond, beq_iff_eq, beq_eq_false_iff_ne]
     refine ⟨?_, ?_, ?_, ?_, ?_, ?_, ?_, ?_, ?_, ?_⟩ <;> simp <;> omega)

/-- The fields of R70 cover the word. -/
theorem word_fieldsOf (c : Word) : (fieldsOf c).word = c := by
  apply BitVec.eq_of_toNat_eq
  have hc := c.isLt
  have hbit : ∀ x : Nat, (x % 2 == 1).toNat = x % 2 := by
    intro x
    rcases Nat.mod_two_eq_zero_or_one x with h | h <;> rw [h] <;> rfl
  simp only [fieldsOf, Fields.word, opcodeOf, variantOf, wordBit, wordField4, BitVec.toNat_ofNat, Fin.val_ofNat, hbit]
  norm_num at hc ⊢
  omega

theorem decode_word (f : Fields) : decode f.word = decodeFields f := congrArg decodeFields (fieldsOf_word f)

theorem decode_encode (i : Instr) : decode (encode i) = decodeFields i.fields := decode_word i.fields

end Sys2Proof.Laws
end

