-- ==== Sys2Proof/Laws/State.lean ====
section
/-! SUPPORT. What each update of the state does to each field and to each register view: one lemma per field per update. -/

namespace Sys2Proof.Machine

variable (s : State)

/-! ### setBig -/

@[simp] theorem setBig_cfg (v : VReg) (x : Nat) (f : FlagField) : (s.setBig v x f).cfg = s.cfg := rfl
@[simp] theorem setBig_cond (v : VReg) (x : Nat) (f : FlagField) : (s.setBig v x f).cond = s.cond := rfl
@[simp] theorem setBig_status (v : VReg) (x : Nat) (f : FlagField) : (s.setBig v x f).status = s.status := rfl
@[simp] theorem setBig_cause (v : VReg) (x : Nat) (f : FlagField) : (s.setBig v x f).cause = s.cause := rfl
@[simp] theorem setBig_fcmd (v : VReg) (x : Nat) (f : FlagField) : (s.setBig v x f).fcmd = s.fcmd := rfl
@[simp] theorem setBig_ie (v : VReg) (x : Nat) (f : FlagField) : (s.setBig v x f).ie = s.ie := rfl
@[simp] theorem setBig_ifc (v : VReg) (x : Nat) (f : FlagField) : (s.setBig v x f).ifc = s.ifc := rfl
@[simp] theorem setBig_order (v : VReg) (x : Nat) (f : FlagField) : (s.setBig v x f).order = s.order := rfl
@[simp] theorem setBig_returned (v : VReg) (x : Nat) (f : FlagField) : (s.setBig v x f).returned = s.returned := rfl
@[simp] theorem setBig_draws (v : VReg) (x : Nat) (f : FlagField) : (s.setBig v x f).draws = s.draws := rfl
@[simp] theorem setBig_scalar (v : VReg) (x : Nat) (f : FlagField) (u : SReg) : (s.setBig v x f).scalar u = s.scalar u := rfl

/-! ### setFlags -/

@[simp] theorem setFlags_cfg (v : VReg) (f : FlagField) : (s.setFlags v f).cfg = s.cfg := rfl
@[simp] theorem setFlags_cond (v : VReg) (f : FlagField) : (s.setFlags v f).cond = s.cond := rfl
@[simp] theorem setFlags_status (v : VReg) (f : FlagField) : (s.setFlags v f).status = s.status := rfl
@[simp] theorem setFlags_cause (v : VReg) (f : FlagField) : (s.setFlags v f).cause = s.cause := rfl
@[simp] theorem setFlags_fcmd (v : VReg) (f : FlagField) : (s.setFlags v f).fcmd = s.fcmd := rfl
@[simp] theorem setFlags_ie (v : VReg) (f : FlagField) : (s.setFlags v f).ie = s.ie := rfl
@[simp] theorem setFlags_ifc (v : VReg) (f : FlagField) : (s.setFlags v f).ifc = s.ifc := rfl
@[simp] theorem setFlags_order (v : VReg) (f : FlagField) : (s.setFlags v f).order = s.order := rfl
@[simp] theorem setFlags_returned (v : VReg) (f : FlagField) : (s.setFlags v f).returned = s.returned := rfl
@[simp] theorem setFlags_draws (v : VReg) (f : FlagField) : (s.setFlags v f).draws = s.draws := rfl
@[simp] theorem setFlags_scalar (v : VReg) (f : FlagField) (u : SReg) : (s.setFlags v f).scalar u = s.scalar u := rfl

/-! ### setWord -/

@[simp] theorem setWord_cfg (v : VReg) (i w : Nat) : (s.setWord v i w).cfg = s.cfg := rfl
@[simp] theorem setWord_cond (v : VReg) (i w : Nat) : (s.setWord v i w).cond = s.cond := rfl
@[simp] theorem setWord_status (v : VReg) (i w : Nat) : (s.setWord v i w).status = s.status := rfl
@[simp] theorem setWord_cause (v : VReg) (i w : Nat) : (s.setWord v i w).cause = s.cause := rfl
@[simp] theorem setWord_fcmd (v : VReg) (i w : Nat) : (s.setWord v i w).fcmd = s.fcmd := rfl
@[simp] theorem setWord_ie (v : VReg) (i w : Nat) : (s.setWord v i w).ie = s.ie := rfl
@[simp] theorem setWord_ifc (v : VReg) (i w : Nat) : (s.setWord v i w).ifc = s.ifc := rfl
@[simp] theorem setWord_order (v : VReg) (i w : Nat) : (s.setWord v i w).order = s.order := rfl
@[simp] theorem setWord_returned (v : VReg) (i w : Nat) : (s.setWord v i w).returned = s.returned := rfl
@[simp] theorem setWord_draws (v : VReg) (i w : Nat) : (s.setWord v i w).draws = s.draws := rfl
@[simp] theorem setWord_scalar (v : VReg) (i w : Nat) (u : SReg) : (s.setWord v i w).scalar u = s.scalar u := rfl

/-! ### setScalar -/

@[simp] theorem setScalar_cfg (k : SReg) (x : Nat) : (s.setScalar k x).cfg = s.cfg := rfl
@[simp] theorem setScalar_cond (k : SReg) (x : Nat) : (s.setScalar k x).cond = s.cond := rfl
@[simp] theorem setScalar_status (k : SReg) (x : Nat) : (s.setScalar k x).status = s.status := rfl
@[simp] theorem setScalar_cause (k : SReg) (x : Nat) : (s.setScalar k x).cause = s.cause := rfl
@[simp] theorem setScalar_fcmd (k : SReg) (x : Nat) : (s.setScalar k x).fcmd = s.fcmd := rfl
@[simp] theorem setScalar_ie (k : SReg) (x : Nat) : (s.setScalar k x).ie = s.ie := rfl
@[simp] theorem setScalar_ifc (k : SReg) (x : Nat) : (s.setScalar k x).ifc = s.ifc := rfl
@[simp] theorem setScalar_order (k : SReg) (x : Nat) : (s.setScalar k x).order = s.order := rfl
@[simp] theorem setScalar_returned (k : SReg) (x : Nat) : (s.setScalar k x).returned = s.returned := rfl
@[simp] theorem setScalar_draws (k : SReg) (x : Nat) : (s.setScalar k x).draws = s.draws := rfl
@[simp] theorem setScalar_big (k : SReg) (x : Nat) (u : VReg) : (s.setScalar k x).big u = s.big u := rfl
@[simp] theorem setScalar_bigFlags (k : SReg) (x : Nat) (u : VReg) : (s.setScalar k x).bigFlags u = s.bigFlags u := rfl

/-! ### setB -/

@[simp] theorem setB_cfg (b : Bool) : (s.setB b).cfg = s.cfg := rfl
@[simp] theorem setB_cond (b : Bool) : (s.setB b).cond = { s.cond with b := b } := rfl
@[simp] theorem setB_status (b : Bool) : (s.setB b).status = s.status := rfl
@[simp] theorem setB_cause (b : Bool) : (s.setB b).cause = s.cause := rfl
@[simp] theorem setB_fcmd (b : Bool) : (s.setB b).fcmd = s.fcmd := rfl
@[simp] theorem setB_ie (b : Bool) : (s.setB b).ie = s.ie := rfl
@[simp] theorem setB_ifc (b : Bool) : (s.setB b).ifc = s.ifc := rfl
@[simp] theorem setB_order (b : Bool) : (s.setB b).order = s.order := rfl
@[simp] theorem setB_returned (b : Bool) : (s.setB b).returned = s.returned := rfl
@[simp] theorem setB_draws (b : Bool) : (s.setB b).draws = s.draws := rfl
@[simp] theorem setB_big (b : Bool) (u : VReg) : (s.setB b).big u = s.big u := rfl
@[simp] theorem setB_bigFlags (b : Bool) (u : VReg) : (s.setB b).bigFlags u = s.bigFlags u := rfl
@[simp] theorem setB_scalar (b : Bool) (u : SReg) : (s.setB b).scalar u = s.scalar u := rfl

/-! ### setNone -/

@[simp] theorem setNone_cfg (n : Bool) : (s.setNone n).cfg = s.cfg := rfl
@[simp] theorem setNone_cond (n : Bool) : (s.setNone n).cond = { s.cond with none := n } := rfl
@[simp] theorem setNone_status (n : Bool) : (s.setNone n).status = s.status := rfl
@[simp] theorem setNone_cause (n : Bool) : (s.setNone n).cause = s.cause := rfl
@[simp] theorem setNone_fcmd (n : Bool) : (s.setNone n).fcmd = s.fcmd := rfl
@[simp] theorem setNone_ie (n : Bool) : (s.setNone n).ie = s.ie := rfl
@[simp] theorem setNone_ifc (n : Bool) : (s.setNone n).ifc = s.ifc := rfl
@[simp] theorem setNone_order (n : Bool) : (s.setNone n).order = s.order := rfl
@[simp] theorem setNone_returned (n : Bool) : (s.setNone n).returned = s.returned := rfl
@[simp] theorem setNone_draws (n : Bool) : (s.setNone n).draws = s.draws := rfl
@[simp] theorem setNone_big (n : Bool) (u : VReg) : (s.setNone n).big u = s.big u := rfl
@[simp] theorem setNone_bigFlags (n : Bool) (u : VReg) : (s.setNone n).bigFlags u = s.bigFlags u := rfl
@[simp] theorem setNone_scalar (n : Bool) (u : SReg) : (s.setNone n).scalar u = s.scalar u := rfl

/-! ### completed -/

@[simp] theorem completed_cfg : (s.completed).cfg = s.cfg := rfl
@[simp] theorem completed_cond : (s.completed).cond = s.cond := rfl
@[simp] theorem completed_status : (s.completed).status = { s.status with busy := false, done := true } := rfl
@[simp] theorem completed_cause : (s.completed).cause = s.cause := rfl
@[simp] theorem completed_fcmd : (s.completed).fcmd = s.fcmd := rfl
@[simp] theorem completed_ie : (s.completed).ie = s.ie := rfl
@[simp] theorem completed_ifc : (s.completed).ifc = none := rfl
@[simp] theorem completed_order : (s.completed).order = s.order := rfl
@[simp] theorem completed_returned : (s.completed).returned = s.returned := rfl
@[simp] theorem completed_draws : (s.completed).draws = s.draws := rfl
@[simp] theorem completed_big (u : VReg) : (s.completed).big u = s.big u := rfl
@[simp] theorem completed_bigFlags (u : VReg) : (s.completed).bigFlags u = s.bigFlags u := rfl
@[simp] theorem completed_scalar (u : SReg) : (s.completed).scalar u = s.scalar u := rfl

/-! ### takeFault -/

@[simp] theorem takeFault_cfg (c : Cause) : (takeFault c s).cfg = s.cfg := rfl
@[simp] theorem takeFault_cond (c : Cause) : (takeFault c s).cond = s.cond := rfl
@[simp] theorem takeFault_status (c : Cause) : (takeFault c s).status = { s.status with busy := false, fault := true } := rfl
@[simp] theorem takeFault_cause (c : Cause) : (takeFault c s).cause = c := rfl
@[simp] theorem takeFault_fcmd (c : Cause) : (takeFault c s).fcmd = s.ifc.getD s.fcmd := rfl
@[simp] theorem takeFault_ie (c : Cause) : (takeFault c s).ie = s.ie := rfl
@[simp] theorem takeFault_ifc (c : Cause) : (takeFault c s).ifc = none := rfl
@[simp] theorem takeFault_order (c : Cause) : (takeFault c s).order = s.order := rfl
@[simp] theorem takeFault_returned (c : Cause) : (takeFault c s).returned = s.returned := rfl
@[simp] theorem takeFault_draws (c : Cause) : (takeFault c s).draws = s.draws := rfl
@[simp] theorem takeFault_big (c : Cause) (u : VReg) : (takeFault c s).big u = s.big u := rfl
@[simp] theorem takeFault_bigFlags (c : Cause) (u : VReg) : (takeFault c s).bigFlags u = s.bigFlags u := rfl
@[simp] theorem takeFault_scalar (c : Cause) (u : SReg) : (takeFault c s).scalar u = s.scalar u := rfl

/-! ### acknowledge -/

@[simp] theorem acknowledge_cfg : (acknowledge s).cfg = s.cfg := rfl
@[simp] theorem acknowledge_cond : (acknowledge s).cond = s.cond := rfl
@[simp] theorem acknowledge_status : (acknowledge s).status = { s.status with fault := false } := rfl
@[simp] theorem acknowledge_cause : (acknowledge s).cause = .none := rfl
@[simp] theorem acknowledge_fcmd : (acknowledge s).fcmd = 0 := rfl
@[simp] theorem acknowledge_ie : (acknowledge s).ie = s.ie := rfl
@[simp] theorem acknowledge_ifc : (acknowledge s).ifc = s.ifc := rfl
@[simp] theorem acknowledge_order : (acknowledge s).order = s.order := rfl
@[simp] theorem acknowledge_returned : (acknowledge s).returned = s.returned := rfl
@[simp] theorem acknowledge_draws : (acknowledge s).draws = s.draws := rfl
@[simp] theorem acknowledge_big (u : VReg) : (acknowledge s).big u = s.big u := rfl
@[simp] theorem acknowledge_bigFlags (u : VReg) : (acknowledge s).bigFlags u = s.bigFlags u := rfl
@[simp] theorem acknowledge_scalar (u : SReg) : (acknowledge s).scalar u = s.scalar u := rfl

/-! ### softReset -/

@[simp] theorem softReset_cfg : (softReset s).cfg = s.cfg := rfl
@[simp] theorem softReset_cond : (softReset s).cond = { b := false, none := false } := rfl
@[simp] theorem softReset_status : (softReset s).status = { busy := false, fault := false, done := false, lost := false } := rfl
@[simp] theorem softReset_cause : (softReset s).cause = .none := rfl
@[simp] theorem softReset_fcmd : (softReset s).fcmd = 0 := rfl
@[simp] theorem softReset_ie : (softReset s).ie = { doneIE := false, faultIE := false } := rfl
@[simp] theorem softReset_ifc : (softReset s).ifc = none := rfl
@[simp] theorem softReset_order : (softReset s).order = s.order := rfl
@[simp] theorem softReset_returned : (softReset s).returned = s.returned := rfl
@[simp] theorem softReset_draws : (softReset s).draws = s.draws := rfl
@[simp] theorem softReset_big (u : VReg) : (softReset s).big u = s.big u := rfl
@[simp] theorem softReset_bigFlags (u : VReg) : (softReset s).bigFlags u = s.bigFlags u := rfl
@[simp] theorem softReset_scalar (u : SReg) : (softReset s).scalar u = s.scalar u := rfl

/-! ### hardReset -/

@[simp] theorem hardReset_cfg : (hardReset s).cfg = s.cfg := rfl
@[simp] theorem hardReset_cond : (hardReset s).cond = { b := false, none := false } := rfl
@[simp] theorem hardReset_status : (hardReset s).status = { busy := false, fault := false, done := false, lost := false } := rfl
@[simp] theorem hardReset_cause : (hardReset s).cause = .none := rfl
@[simp] theorem hardReset_fcmd : (hardReset s).fcmd = 0 := rfl
@[simp] theorem hardReset_ie : (hardReset s).ie = { doneIE := false, faultIE := false } := rfl
@[simp] theorem hardReset_ifc : (hardReset s).ifc = none := rfl
@[simp] theorem hardReset_order : (hardReset s).order = s.order := rfl
@[simp] theorem hardReset_returned : (hardReset s).returned = s.returned := rfl
@[simp] theorem hardReset_draws : (hardReset s).draws = s.draws + 48 := rfl

/-! ### markLost -/

@[simp] theorem markLost_cfg : (s.markLost).cfg = s.cfg := rfl
@[simp] theorem markLost_cond : (s.markLost).cond = s.cond := rfl
@[simp] theorem markLost_status : (s.markLost).status = { s.status with lost := true } := rfl
@[simp] theorem markLost_cause : (s.markLost).cause = s.cause := rfl
@[simp] theorem markLost_fcmd : (s.markLost).fcmd = s.fcmd := rfl
@[simp] theorem markLost_ie : (s.markLost).ie = s.ie := rfl
@[simp] theorem markLost_ifc : (s.markLost).ifc = s.ifc := rfl
@[simp] theorem markLost_order : (s.markLost).order = s.order := rfl
@[simp] theorem markLost_returned : (s.markLost).returned = s.returned := rfl
@[simp] theorem markLost_draws : (s.markLost).draws = s.draws := rfl
@[simp] theorem markLost_big (u : VReg) : (s.markLost).big u = s.big u := rfl
@[simp] theorem markLost_bigFlags (u : VReg) : (s.markLost).bigFlags u = s.bigFlags u := rfl
@[simp] theorem markLost_scalar (u : SReg) : (s.markLost).scalar u = s.scalar u := rfl

/-! ### answer -/

@[simp] theorem answer_cfg (x : Nat) : (s.answer x).cfg = s.cfg := rfl
@[simp] theorem answer_cond (x : Nat) : (s.answer x).cond = s.cond := rfl
@[simp] theorem answer_status (x : Nat) : (s.answer x).status = s.status := rfl
@[simp] theorem answer_cause (x : Nat) : (s.answer x).cause = s.cause := rfl
@[simp] theorem answer_fcmd (x : Nat) : (s.answer x).fcmd = s.fcmd := rfl
@[simp] theorem answer_ie (x : Nat) : (s.answer x).ie = s.ie := rfl
@[simp] theorem answer_ifc (x : Nat) : (s.answer x).ifc = s.ifc := rfl
@[simp] theorem answer_order (x : Nat) : (s.answer x).order = s.order := rfl
@[simp] theorem answer_returned (x : Nat) : (s.answer x).returned = x :: s.returned := rfl
@[simp] theorem answer_draws (x : Nat) : (s.answer x).draws = s.draws := rfl
@[simp] theorem answer_big (x : Nat) (u : VReg) : (s.answer x).big u = s.big u := rfl
@[simp] theorem answer_bigFlags (x : Nat) (u : VReg) : (s.answer x).bigFlags u = s.bigFlags u := rfl
@[simp] theorem answer_scalar (x : Nat) (u : SReg) : (s.answer x).scalar u = s.scalar u := rfl

/-! ### answerUnspecified -/

@[simp] theorem answerUnspecified_cfg (w : Nat) : (s.answerUnspecified w).cfg = s.cfg := rfl
@[simp] theorem answerUnspecified_cond (w : Nat) : (s.answerUnspecified w).cond = s.cond := rfl
@[simp] theorem answerUnspecified_status (w : Nat) : (s.answerUnspecified w).status = { s.status with lost := true } := rfl
@[simp] theorem answerUnspecified_cause (w : Nat) : (s.answerUnspecified w).cause = s.cause := rfl
@[simp] theorem answerUnspecified_fcmd (w : Nat) : (s.answerUnspecified w).fcmd = s.fcmd := rfl
@[simp] theorem answerUnspecified_ie (w : Nat) : (s.answerUnspecified w).ie = s.ie := rfl
@[simp] theorem answerUnspecified_ifc (w : Nat) : (s.answerUnspecified w).ifc = s.ifc := rfl
@[simp] theorem answerUnspecified_order (w : Nat) : (s.answerUnspecified w).order = s.order := rfl
@[simp] theorem answerUnspecified_returned (w : Nat) : (s.answerUnspecified w).returned = (Config.freeBits w s.draws).toNat :: s.returned := rfl
@[simp] theorem answerUnspecified_draws (w : Nat) : (s.answerUnspecified w).draws = s.draws + 1 := rfl
@[simp] theorem answerUnspecified_big (w : Nat) (u : VReg) : (s.answerUnspecified w).big u = s.big u := rfl
@[simp] theorem answerUnspecified_bigFlags (w : Nat) (u : VReg) : (s.answerUnspecified w).bigFlags u = s.bigFlags u := rfl
@[simp] theorem answerUnspecified_scalar (w : Nat) (u : SReg) : (s.answerUnspecified w).scalar u = s.scalar u := rfl

/-! ### The register views after a register write -/

theorem big_lt (v : VReg) : s.big v < s.cfg.modulus := (s.v[v].value).isLt

theorem scalar_lt (k : SReg) : s.scalar k < 2 ^ s.cfg.scalarBits := (s.s[k]).isLt

theorem one_lt_modulus : 1 < s.cfg.modulus := by
  have := s.cfg.wide
  exact Nat.one_lt_two_pow (by unfold Config.totalBits; omega)

theorem modulus_pos : 0 < s.cfg.modulus := lt_trans Nat.zero_lt_one (one_lt_modulus s)

/-- A single-word operand is a value of a big register (R11). -/
theorem word_lt_modulus (k : SReg) : s.scalar k % 2 ^ s.cfg.wordBits < s.cfg.modulus := by
  refine lt_of_lt_of_le (Nat.mod_lt _ (by positivity)) (Nat.pow_le_pow_right (by decide) ?_)
  have := s.cfg.words_pos
  exact Nat.le_mul_of_pos_right _ (by omega)

/-- A whole scalar is a value of a big register (R104). -/
theorem scalar_lt_modulus (k : SReg) : s.scalar k < s.cfg.modulus := by
  refine lt_of_lt_of_le (scalar_lt s k) (Nat.pow_le_pow_right (by decide) ?_)
  have := s.cfg.wide
  have : s.cfg.width.bits ≤ 128 := by cases s.cfg.width <;> decide
  unfold Config.totalBits Config.scalarBits
  omega

/-- A count of bits or words is a value of a scalar register (R270). -/
theorem count_lt_scalar {x : Nat} (h : x ≤ s.cfg.totalBits) : x < 2 ^ s.cfg.scalarBits := by
  have hb : s.cfg.width.bits ≤ 128 := by cases s.cfg.width <;> decide
  have h1 : s.cfg.totalBits ≤ 128 * 65535 := Nat.mul_le_mul hb s.cfg.words_le
  have h2 : 2 ^ 64 ≤ 2 ^ s.cfg.scalarBits := Nat.pow_le_pow_right (by decide) (Nat.le_max_right _ _)
  omega

theorem vector_get_set {α : Type} (xs : Vector α 16) (v u : Fin 16) (x : α) :
    (xs.set v.val x v.isLt)[u.val] = if u = v then x else xs[u.val] := by
  by_cases h : u = v
  · subst h; simp
  · have h' : v.val ≠ u.val := fun e => h (Fin.ext e.symm)
    simp [h, h']

@[simp] theorem setBig_big (v : VReg) (x : Nat) (f : FlagField) (u : VReg) :
    (s.setBig v x f).big u = if u = v then x % s.cfg.modulus else s.big u := by
  have h := congrArg (fun r => r.value.toNat) (vector_get_set s.v v u { value := BitVec.ofNat _ x, flags := f })
  refine Eq.trans h ?_
  split <;> simp [State.big, Config.modulus]

@[simp] theorem setBig_bigFlags (v : VReg) (x : Nat) (f : FlagField) (u : VReg) :
    (s.setBig v x f).bigFlags u = if u = v then f else s.bigFlags u := by
  have h := congrArg (fun r => r.flags) (vector_get_set s.v v u { value := BitVec.ofNat _ x, flags := f })
  refine Eq.trans h ?_
  split <;> simp [State.bigFlags]

@[simp] theorem setFlags_big (v : VReg) (f : FlagField) (u : VReg) : (s.setFlags v f).big u = s.big u := by
  have h := congrArg (fun r => r.value.toNat) (vector_get_set s.v v u { s.v[v] with flags := f })
  refine Eq.trans h ?_
  split
  · next e => subst e; rfl
  · rfl

@[simp] theorem setFlags_bigFlags (v : VReg) (f : FlagField) (u : VReg) :
    (s.setFlags v f).bigFlags u = if u = v then f else s.bigFlags u := by
  have h := congrArg (fun r => r.flags) (vector_get_set s.v v u { s.v[v] with flags := f })
  refine Eq.trans h ?_
  split <;> simp [State.bigFlags]

@[simp] theorem setScalar_scalar (k : SReg) (x : Nat) (u : SReg) :
    (s.setScalar k x).scalar u = if u = k then x % 2 ^ s.cfg.scalarBits else s.scalar u := by
  have h := congrArg BitVec.toNat (vector_get_set s.s k u (BitVec.ofNat _ x))
  refine Eq.trans h ?_
  split <;> simp [State.scalar]

@[simp] theorem setWord_big (v : VReg) (i w : Nat) (u : VReg) :
    (s.setWord v i w).big u =
      if u = v then replaceWord s.cfg.wordBits (s.big v) i w % s.cfg.modulus else s.big u := by
  simp [State.setWord]

@[simp] theorem setWord_bigFlags (v : VReg) (i w : Nat) (u : VReg) :
    (s.setWord v i w).bigFlags u = s.bigFlags u := by
  by_cases h : u = v <;> simp [State.setWord, h]

/-! ### The one turn consumed -/

@[simp] theorem order_big (ts : List Turn) (u : VReg) : ({ s with order := ts } : State).big u = s.big u := rfl
@[simp] theorem order_bigFlags (ts : List Turn) (u : VReg) :
    ({ s with order := ts } : State).bigFlags u = s.bigFlags u := rfl
@[simp] theorem order_scalar (ts : List Turn) (u : SReg) :
    ({ s with order := ts } : State).scalar u = s.scalar u := rfl

end Sys2Proof.Machine
end

