-- ==== Sys2Proof/Laws/Forms.lean ====
section
/-! SUPPORT. What each result form does: one lemma per form, in the words of Safety. A meaning that is one form gets its
result and its frame from here. -/

namespace Sys2Proof.Laws

open Sys2Proof.Machine Sys2Proof.Safety

variable {i : Instr} {s t : State}

theorem completed_completed (h : t.cfg = s.cfg) (h1 : t.status = s.status) (h2 : t.cause = s.cause)
    (h3 : t.fcmd = s.fcmd) (h4 : t.ie = s.ie) (h5 : t.order = s.order) (h6 : t.returned = s.returned)
    (h7 : t.draws = s.draws) : Completed s t.completed :=
  { cfg := h, status := by simp [h1], ifc := rfl, cause := h2, fcmd := h3, ie := h4, order := h5, returned := h6,
    draws := h7 }

theorem flags_or_zero (f : FlagField) : f ||| 0 = f := BitVec.or_zero

theorem bigsKept_refl (s : State) (ds : List VReg) : BigsKept s s ds := fun _ _ => ⟨rfl, rfl⟩

theorem scalarsKept_refl (s : State) (ds : List SReg) : ScalarsKept s s ds := fun _ _ => rfl

theorem faults_raise {c : Cause} (h : exec i s = raise c s) : Faults i s c :=
  ⟨takeFault c s, h,
    { cfg := rfl, status := rfl, ifc := rfl, cause := rfl, fcmd := fun w hw => by simp [hw], ie := rfl, order := rfl,
      returned := rfl, draws := rfl, cond := rfl, bigs := bigsKept_refl s [], scalars := scalarsKept_refl s [] }⟩

/-- Any command that writes one big register and possibly COND. -/
theorem writesBig_complete {rd : VReg} {x : Nat} {f : FlagField} (u : State)
    (h : exec i s = complete u) (hs : Completed s u.completed) (hb : u.big rd = x) (hf : u.bigFlags rd = f)
    (hk : BigsKept s u [rd]) (hks : ScalarsKept s u []) : WritesBig i s rd x f u.cond :=
  ⟨u.completed, h, hs, hb, hf, rfl, hk, hks⟩

theorem bigsKept_setBig (s : State) (rd : VReg) (x : Nat) (f : FlagField) : BigsKept s (s.setBig rd x f) [rd] := by
  intro v hv
  have : v ≠ rd := by simpa using hv
  simp [this]

theorem writesBig_setBig {rd : VReg} {x : Nat} {f : FlagField} (h : exec i s = complete (s.setBig rd x f))
    (hx : x < s.cfg.modulus) : WritesBig i s rd x f s.cond :=
  writesBig_complete (s.setBig rd x f) h (completed_completed rfl rfl rfl rfl rfl rfl rfl rfl)
    (by simp [Nat.mod_eq_of_lt hx]) (by simp) (bigsKept_setBig s rd x f) (fun _ _ => rfl)

theorem writesBig_valueForm {rd rs1 : VReg} {x : Nat} {new : FlagField} (h : exec i s = valueForm rd rs1 x new s)
    (hx : x < s.cfg.modulus) : WritesBig i s rd x (s.bigFlags rs1 ||| new) s.cond :=
  writesBig_setBig h hx

theorem writesBig_freshForm {rd : VReg} {x : Nat} (h : exec i s = freshForm rd x s) (hx : x < s.cfg.modulus) :
    WritesBig i s rd x 0 s.cond := writesBig_setBig h hx

theorem writesBig_setBig_setB {rd : VReg} {x : Nat} {f : FlagField} {b : Bool}
    (h : exec i s = complete ((s.setBig rd x f).setB b)) (hx : x < s.cfg.modulus) :
    WritesBig i s rd x f { s.cond with b := b } :=
  writesBig_complete ((s.setBig rd x f).setB b) h (completed_completed rfl rfl rfl rfl rfl rfl rfl rfl)
    (by simp [Nat.mod_eq_of_lt hx]) (by simp) (bigsKept_setBig s rd x f) (fun _ _ => rfl)

theorem writesBig_setBig_setNone {rd : VReg} {x : Nat} {f : FlagField} {b : Bool}
    (h : exec i s = complete ((s.setBig rd x f).setNone b)) (hx : x < s.cfg.modulus) :
    WritesBig i s rd x f { s.cond with none := b } :=
  writesBig_complete ((s.setBig rd x f).setNone b) h (completed_completed rfl rfl rfl rfl rfl rfl rfl rfl)
    (by simp [Nat.mod_eq_of_lt hx]) (by simp) (bigsKept_setBig s rd x f) (fun _ _ => rfl)

theorem writesBig_ovfForm {rd rs1 : VReg} {x : Nat} {new : FlagField} {bad : Bool}
    (h : exec i s = ovfForm rd rs1 x new bad s) (hx : x < s.cfg.modulus) :
    WritesBig i s rd x (s.bigFlags rs1 ||| new) { s.cond with b := bad } := writesBig_setBig_setB h hx

theorem writesCond_chkForm {rd rs1 : VReg} {x : Nat} (h : exec i s = chkForm rd rs1 x true s) :
    WritesCond i s { s.cond with none := true } :=
  ⟨(s.setNone true).completed, h, completed_completed rfl rfl rfl rfl rfl rfl rfl rfl, rfl, fun _ _ => ⟨rfl, rfl⟩,
    fun _ _ => rfl⟩

theorem writesBig_chkForm {rd rs1 : VReg} {x : Nat} (h : exec i s = chkForm rd rs1 x false s)
    (hx : x < s.cfg.modulus) : WritesBig i s rd x (s.bigFlags rs1) { s.cond with none := false } := by
  have := writesBig_setBig_setNone (f := inherit (s.bigFlags rs1) 0) h hx
  rwa [show inherit (s.bigFlags rs1) 0 = s.bigFlags rs1 from flags_or_zero _] at this

theorem faults_unchkForm {rd rs1 : VReg} {x : Nat} {c : Cause} (h : exec i s = unchkForm rd rs1 x true c s) :
    Faults i s c := faults_raise h

theorem writesBig_unchkForm {rd rs1 : VReg} {x : Nat} {c : Cause} (h : exec i s = unchkForm rd rs1 x false c s)
    (hx : x < s.cfg.modulus) : WritesBig i s rd x (s.bigFlags rs1) s.cond := by
  have := writesBig_setBig (f := inherit (s.bigFlags rs1) 0) h hx
  rwa [show inherit (s.bigFlags rs1) 0 = s.bigFlags rs1 from flags_or_zero _] at this

theorem writesBig_plain {rd rs1 : VReg} {x : Nat} (h : exec i s = valueForm rd rs1 x 0 s)
    (hx : x < s.cfg.modulus) : WritesBig i s rd x (s.bigFlags rs1) s.cond := by
  have := writesBig_valueForm h hx
  rwa [flags_or_zero] at this

theorem writesPair_pairForm {rd rd2 rs1 : VReg} {lo hi : Nat} {newLo newHi : FlagField} (hne : rd ≠ rd2)
    (h : exec i s = pairForm rd rd2 rs1 lo newLo hi newHi s) (hlo : lo < s.cfg.modulus) (hhi : hi < s.cfg.modulus) :
    WritesPair i s rd rd2 lo (s.bigFlags rs1 ||| newLo) hi (s.bigFlags rs1 ||| newHi) := by
  refine ⟨((writeResult rd rs1 lo newLo s).setBig rd2 hi (inherit (s.bigFlags rs1) newHi)).completed, ?_,
    completed_completed rfl rfl rfl rfl rfl rfl rfl rfl, ?_, ?_, ?_, ?_, rfl, ?_, fun _ _ => rfl⟩
  · rw [h, pairForm, if_neg hne]; rfl
  · simp [writeResult, hne, Nat.mod_eq_of_lt hlo]
  · simp [writeResult, hne, inherit]
  · simp [writeResult, Nat.mod_eq_of_lt hhi]
  · simp [inherit]
  · intro v hv
    have : v ≠ rd ∧ v ≠ rd2 := by simpa using hv
    simp [writeResult, this.1, this.2]

theorem faults_pairForm {rd rd2 rs1 : VReg} {lo hi : Nat} {newLo newHi : FlagField} (he : rd = rd2)
    (h : exec i s = pairForm rd rd2 rs1 lo newLo hi newHi s) : Faults i s .illegalForm :=
  faults_raise (h.trans (if_pos he))

theorem writesScalar_scalarForm {rd : SReg} {x : Nat} (h : exec i s = scalarForm rd x s)
    (hx : x < 2 ^ s.cfg.scalarBits) : WritesScalar i s rd x := by
  refine ⟨(s.setScalar rd x).completed, h, completed_completed rfl rfl rfl rfl rfl rfl rfl rfl,
    by simp [Nat.mod_eq_of_lt hx], rfl, fun _ _ => ⟨rfl, rfl⟩, ?_⟩
  intro k hk
  have : k ≠ rd := by simpa using hk
  simp [this]

theorem writesCond_setB {b : Bool} (h : exec i s = complete (s.setB b)) : WritesCond i s { s.cond with b := b } :=
  ⟨(s.setB b).completed, h, completed_completed rfl rfl rfl rfl rfl rfl rfl rfl, rfl, fun _ _ => ⟨rfl, rfl⟩,
    fun _ _ => rfl⟩

theorem writesBig_setFlags {rd : VReg} {f : FlagField} (h : exec i s = complete (s.setFlags rd f)) :
    WritesBig i s rd (s.big rd) f s.cond := by
  refine writesBig_complete (s.setFlags rd f) h (completed_completed rfl rfl rfl rfl rfl rfl rfl rfl) (by simp)
    (by simp) ?_ (fun _ _ => rfl)
  intro v hv
  have : v ≠ rd := by simpa using hv
  simp [this]

end Sys2Proof.Laws
end

