-- ==== Sys2Proof/Laws/Exec.lean ====
section
/-! SUPPORT. Everything one command can do, said once: it completes, or it raises a fault. One lemma per result form, and
`exec_ends` for all commands; a fact about every command or every step is a case analysis on it. -/

namespace Sys2Proof.Laws

open Sys2Proof.Machine Sys2Proof.Safety

/-- The answer is a next state: either a completion that keeps every register outside `vd` and `sd`, COND.B unless `wb`
and COND.NONE unless `wn`; or fault entry with a cause. -/
def Ends (s : State) (vd : List VReg) (sd : List SReg) (wb wn : Bool) (a : Answer) : Prop :=
  (∃ t, a = .next t ∧ Completed s t ∧ BigsKept s t vd ∧ ScalarsKept s t sd ∧ (wb = false → t.cond.b = s.cond.b) ∧
    (wn = false → t.cond.none = s.cond.none)) ∨
  ∃ c, c ≠ Cause.none ∧ a = .next (takeFault c s)

variable {s u : State} {vd : List VReg} {sd : List SReg} {wb wn : Bool}

theorem ends_complete (hc : Completed s u.completed) (hb : BigsKept s u vd) (hs : ScalarsKept s u sd)
    (h1 : wb = false → u.cond.b = s.cond.b) (h2 : wn = false → u.cond.none = s.cond.none) :
    Ends s vd sd wb wn (complete u) := .inl ⟨u.completed, rfl, hc, hb, hs, h1, h2⟩

theorem ends_raise {c : Cause} (h : c ≠ .none) : Ends s vd sd wb wn (raise c s) := .inr ⟨c, h, rfl⟩

theorem ends_setBig (rd : VReg) (x : Nat) (f : FlagField) : Ends s [rd] [] false false (complete (s.setBig rd x f)) :=
  ends_complete (completed_completed rfl rfl rfl rfl rfl rfl rfl rfl) (bigsKept_setBig s rd x f) (fun _ _ => rfl)
    (fun _ => rfl) (fun _ => rfl)

theorem ends_valueForm (rd rs1 : VReg) (x : Nat) (new : FlagField) :
    Ends s [rd] [] false false (valueForm rd rs1 x new s) := ends_setBig rd x _

theorem ends_freshForm (rd : VReg) (x : Nat) : Ends s [rd] [] false false (freshForm rd x s) := ends_setBig rd x 0

theorem ends_modularForm (rd rs1 : VReg) (m x : Nat) (new : FlagField) :
    Ends s [rd] [] false false (modularForm rd rs1 m x new s) := by
  unfold modularForm
  split <;> exact ends_valueForm ..

theorem ends_ovfForm (rd rs1 : VReg) (x : Nat) (new : FlagField) (bad : Bool) :
    Ends s [rd] [] true false (ovfForm rd rs1 x new bad s) :=
  ends_complete (completed_completed rfl rfl rfl rfl rfl rfl rfl rfl) (bigsKept_setBig s rd x _) (fun _ _ => rfl)
    (fun h => nomatch h) (fun _ => rfl)

theorem ends_chkForm (rd rs1 : VReg) (x : Nat) (bad : Bool) :
    Ends s [rd] [] false true (chkForm rd rs1 x bad s) := by
  cases bad
  · exact ends_complete (u := (writeResult rd rs1 x 0 s).setNone false)
      (completed_completed rfl rfl rfl rfl rfl rfl rfl rfl) (bigsKept_setBig s rd x _) (fun _ _ => rfl) (fun _ => rfl)
      (fun h => nomatch h)
  · exact ends_complete (u := s.setNone true) (completed_completed rfl rfl rfl rfl rfl rfl rfl rfl)
      (fun _ _ => ⟨rfl, rfl⟩) (fun _ _ => rfl) (fun _ => rfl) (fun h => nomatch h)

theorem ends_unchkForm (rd rs1 : VReg) (x : Nat) (bad : Bool) {c : Cause} (h : c ≠ .none) :
    Ends s [rd] [] false false (unchkForm rd rs1 x bad c s) := by
  cases bad
  · exact ends_setBig rd x _
  · exact ends_raise h

theorem ends_pairForm (rd rd2 rs1 : VReg) (lo : Nat) (newLo : FlagField) (hi : Nat) (newHi : FlagField) :
    Ends s [rd, rd2] [] false false (pairForm rd rd2 rs1 lo newLo hi newHi s) := by
  unfold pairForm
  split
  · exact ends_raise (by decide)
  · refine ends_complete (completed_completed rfl rfl rfl rfl rfl rfl rfl rfl) ?_ (fun _ _ => rfl) (fun _ => rfl)
      (fun _ => rfl)
    intro v hv
    have : v ≠ rd ∧ v ≠ rd2 := by simpa using hv
    simp [writeResult, this.1, this.2]

theorem ends_scalarForm (rd : SReg) (x : Nat) : Ends s [] [rd] false false (scalarForm rd x s) := by
  refine ends_complete (completed_completed rfl rfl rfl rfl rfl rfl rfl rfl) (fun _ _ => ⟨rfl, rfl⟩) ?_ (fun _ => rfl)
    (fun _ => rfl)
  intro k hk
  have : k ≠ rd := by simpa using hk
  simp [this]

theorem ends_setB (b : Bool) : Ends s [] [] true false (complete (s.setB b)) :=
  ends_complete (completed_completed rfl rfl rfl rfl rfl rfl rfl rfl) (fun _ _ => ⟨rfl, rfl⟩) (fun _ _ => rfl)
    (fun h => nomatch h) (fun _ => rfl)

theorem ends_setFlags (rd : VReg) (f : FlagField) : Ends s [rd] [] false false (complete (s.setFlags rd f)) := by
  refine ends_complete (completed_completed rfl rfl rfl rfl rfl rfl rfl rfl) ?_ (fun _ _ => rfl) (fun _ => rfl)
    (fun _ => rfl)
  intro v hv
  have : v ≠ rd := by simpa using hv
  simp [this]

theorem ends_condw (imm : Imm4) : Ends s [] [] true true (execCondw imm s) := by
  unfold execCondw
  split
  · exact ends_complete (completed_completed rfl rfl rfl rfl rfl rfl rfl rfl) (fun _ _ => ⟨rfl, rfl⟩) (fun _ _ => rfl)
      (fun h => nomatch h) (fun h => nomatch h)
  · exact ends_raise (by decide)

/-- What any command does, with the registers and COND bits Machine/Footprint.lean names for it. -/
theorem exec_ends (i : Instr) (s : State) : Ends s i.vDests i.sDests i.writesB i.writesNone (exec i s) := by
  cases i <;>
    first
    | exact ends_valueForm ..
    | exact ends_ovfForm ..
    | exact ends_chkForm ..
    | exact ends_unchkForm _ _ _ _ (by decide)
    | exact ends_pairForm ..
    | exact ends_freshForm ..
    | exact ends_modularForm ..
    | exact ends_scalarForm ..
    | exact ends_setB _
    | exact ends_setFlags ..
    | exact ends_condw _

end Sys2Proof.Laws
end

