-- ==== Sys2Proof/Laws/HostPort.lean ====
section
/-! SUPPORT. Read after write for the words of a big register, and what any host-port operation leaves alone. -/

namespace Sys2Proof.Machine

theorem testBit_replaceWord {b w : Nat} (a i j : Nat) (hw : w < 2 ^ b) :
    (replaceWord b a i w).testBit j =
      if j < b * i then a.testBit j else if j < b * (i + 1) then w.testBit (j - b * i) else a.testBit j := by
  unfold replaceWord
  have h1 : a % 2 ^ (b * i) < 2 ^ (b * i) := Nat.mod_lt _ (by positivity)
  have e : b * (i + 1) = b * i + b := by ring
  have e2 : a % 2 ^ (b * i) + w * 2 ^ (b * i) + a / 2 ^ (b * (i + 1)) * 2 ^ (b * (i + 1)) =
      2 ^ (b * i) * (2 ^ b * (a / 2 ^ (b * (i + 1))) + w) + a % 2 ^ (b * i) := by
    rw [e, pow_add]; ring
  rw [e2, Nat.testBit_two_pow_mul_add _ h1, Nat.testBit_two_pow_mul_add _ hw, Nat.testBit_mod_two_pow,
    Nat.testBit_div_two_pow]
  split
  · simp [*]
  · by_cases c : j - b * i < b
    · rw [if_pos c, if_pos (by omega)]
    · rw [if_neg c, if_neg (by omega)]; congr 1; omega

/-- Word `i` after a write of word `i`. -/
theorem replaceWord_same {b w : Nat} (a i : Nat) (hw : w < 2 ^ b) :
    replaceWord b a i w / 2 ^ (b * i) % 2 ^ b = w := by
  apply Nat.eq_of_testBit_eq
  intro j
  rw [Nat.testBit_mod_two_pow, Nat.testBit_div_two_pow, testBit_replaceWord _ _ _ hw]
  have e : b * (i + 1) = b * i + b := by ring
  by_cases h : j < b
  · rw [decide_eq_true h, if_neg (by omega), if_pos (by omega)]; simp
  · rw [decide_eq_false h, Bool.false_and]
    exact (Nat.testBit_lt_two_pow (lt_of_lt_of_le hw (Nat.pow_le_pow_right (by decide) (by omega)))).symm

/-- Word `j` after a write of another word. -/
theorem replaceWord_other {b w i j : Nat} (a : Nat) (hw : w < 2 ^ b) (h : j ≠ i) :
    replaceWord b a i w / 2 ^ (b * j) % 2 ^ b = a / 2 ^ (b * j) % 2 ^ b := by
  apply Nat.eq_of_testBit_eq
  intro k
  simp only [Nat.testBit_mod_two_pow, Nat.testBit_div_two_pow, testBit_replaceWord _ _ _ hw]
  by_cases c : k < b
  · rcases Nat.lt_or_gt_of_ne h with d | d
    · have := Nat.mul_le_mul_left b d
      rw [if_pos (by rw [Nat.mul_succ] at this; omega)]
    · have := Nat.mul_le_mul_left b d
      have h0 : b * i ≤ b * (i + 1) := Nat.mul_le_mul_left _ (by omega)
      rw [Nat.succ_eq_add_one] at this
      rw [if_neg (by omega), if_neg (by omega)]
  · simp [c]

/-- A word write keeps the value within the register. -/
theorem replaceWord_lt {b a i w n : Nat} (hw : w < 2 ^ b) (ha : a < 2 ^ (b * n)) (hi : i < n) :
    replaceWord b a i w < 2 ^ (b * n) := by
  apply Nat.lt_pow_two_of_testBit
  intro j hj
  have h1 : b * (i + 1) ≤ b * n := Nat.mul_le_mul_left _ hi
  have h2 : b * i ≤ b * (i + 1) := Nat.mul_le_mul_left _ (by omega)
  rw [testBit_replaceWord _ _ _ hw, if_neg (by omega), if_neg (by omega)]
  exact Nat.testBit_lt_two_pow (lt_of_lt_of_le ha (Nat.pow_le_pow_right (by decide) hj))

/-- A host operation with a value that fits is performed; the answer is never a refusal. -/
theorem fitting_next {w x : Nat} {u t : State} (h : fitting w x u = .next t) : x < 2 ^ w ∧ t = u := by
  unfold fitting at h
  split at h
  · cases h; exact ⟨‹_›, rfl⟩
  · cases h

theorem guardedWrite_keeps {ok : Bool} {s u : State} (h : u.cfg = s.cfg ∧ u.order = s.order) :
    (guardedWrite ok s u).cfg = s.cfg ∧ (guardedWrite ok s u).order = s.order := by
  unfold guardedWrite
  split
  · exact ⟨rfl, rfl⟩
  · exact h

theorem guardedRead_keeps (ok : Bool) (w x : Nat) (s : State) :
    (guardedRead ok w x s).cfg = s.cfg ∧ (guardedRead ok w x s).order = s.order := by
  unfold guardedRead
  split <;> exact ⟨rfl, rfl⟩

theorem writeCsr_keeps (c x : Nat) (s : State) : (writeCsr c x s).cfg = s.cfg ∧ (writeCsr c x s).order = s.order := by
  unfold writeCsr
  split
  · unfold State.offer; split <;> exact ⟨rfl, rfl⟩
  · exact ⟨rfl, rfl⟩
  · exact ⟨rfl, rfl⟩
  · unfold writeCtrl; split
    · exact ⟨rfl, rfl⟩
    · split <;> exact ⟨rfl, rfl⟩
  · unfold writeCond; split <;> exact ⟨rfl, rfl⟩
  · exact ⟨rfl, rfl⟩

theorem readCsr_keeps (c : Nat) (s : State) : (readCsr c s).cfg = s.cfg ∧ (readCsr c s).order = s.order := by
  unfold readCsr
  split
  all_goals first
    | exact ⟨rfl, rfl⟩
    | (split <;> exact ⟨rfl, rfl⟩)

/-- No host operation changes the parameters or the turns still to come. -/
theorem hostStep_keeps {op : HostOp} {s t : State} (h : hostStep op s = .next t) :
    t.cfg = s.cfg ∧ t.order = s.order := by
  cases op <;> simp only [hostStep] at h
  case wrWord => rw [(fitting_next h).2]; exact guardedWrite_keeps ⟨rfl, rfl⟩
  case wrFlags => rw [(fitting_next h).2]; exact guardedWrite_keeps ⟨rfl, rfl⟩
  case wrS => rw [(fitting_next h).2]; exact guardedWrite_keeps ⟨rfl, rfl⟩
  case wrCsr => rw [(fitting_next h).2]; exact writeCsr_keeps ..
  case rdWord => cases h; exact guardedRead_keeps ..
  case rdFlags => cases h; exact guardedRead_keeps ..
  case rdS => cases h; exact guardedRead_keeps ..
  case rdCsr => cases h; exact readCsr_keeps ..

end Sys2Proof.Machine
end

