-- ==== Sys2Proof/Tests/Slice0.lean ====
section
/-! SUPPORT. The model's own tests: the checks of WellFormed, words written out from the spec's encodings, one-step
vectors of spec/95_test_vectors.md (each test names its vector, whose expected result is the spec's), and the witnesses
of the statements' hypotheses. -/

namespace Sys2Proof.Tests

open Sys2Proof.Machine Sys2Proof.Safety Sys2Proof.Claims

/-! ### States and views -/

/-- `M - 1` of CFG-A, the vectors' MAX. -/
def top : Nat := 2 ^ 256 - 1

/-- The start state of the vectors: every Vi holds `0x77 + i` with no flag, every Si 0, but for the registers listed, and
COND.B is `b`. -/
def given (cfg : Config) (vs : List (VReg × Nat × FlagField)) (ss : List (SReg × Nat)) (b : Bool) : State :=
  let s := State.afterReset cfg (Vector.ofFn fun i : Fin 16 => { value := BitVec.ofNat _ (0x77 + i.val), flags := 0 })
    (Vector.replicate 16 0)
  let s := vs.foldl (fun s p => s.setBig p.1 p.2.1 p.2.2) s
  (ss.foldl (fun s p => s.setScalar p.1 p.2) s).setB b

/-- One step with the command `w` in flight. -/
def afterWord (w : Nat) (s : State) : Option State :=
  match step (s.withFetchWord 32 w) with
  | .next t => some t
  | .fault _ => none
  | .refused _ => none

/-- A clean completion, and what a view sees then. -/
def seen {α : Type} (w : Nat) (s : State) (f : State → α) : Option α :=
  (afterWord w s).bind fun t => if t.status.done && !t.status.fault && !t.status.busy then some (f t) else none

/-- The value and flags of one register, and COND. -/
def bigAfter (w : Nat) (s : State) (v : VReg) : Option (Nat × FlagField × Bool × Bool) :=
  seen w s fun t => (t.big v, t.bigFlags v, t.cond.b, t.cond.none)

/-- The value and flags of two registers. -/
def pairAfter (w : Nat) (s : State) (v v2 : VReg) : Option (Nat × FlagField × Nat × FlagField) :=
  seen w s fun t => (t.big v, t.bigFlags v, t.big v2, t.bigFlags v2)

/-- The value of a scalar register, and COND. -/
def scalarAfter (w : Nat) (s : State) (k : SReg) : Option (Nat × Bool × Bool) :=
  seen w s fun t => (t.scalar k, t.cond.b, t.cond.none)

/-- COND. -/
def condAfter (w : Nat) (s : State) : Option (Bool × Bool) := seen w s fun t => (t.cond.b, t.cond.none)

/-- The record of a fault, and V4, which holds 0x7B before. -/
def faultAfter (w : Nat) (s : State) : Option (Cause × Word × Nat) :=
  (afterWord w s).bind fun t =>
    if t.status.fault && !t.status.busy then some (t.cause, t.fcmd, t.big 4) else none

/-! ### WellFormed: each check refuses an ill-formed command -/

theorem test_wellFormed_refuses :
    (Instr.mulWide 3 3 1 2).wellFormed = false ∧ (Instr.mulWideU 3 3 1 2).wellFormed = false ∧
    (Instr.mulCarry 3 3 1 2 4).wellFormed = false ∧ (Instr.mulCarryU 3 3 1 2 4).wellFormed = false ∧
    (Instr.divfull 0 0 1 2).wellFormed = false ∧ (Instr.divfullU 0 0 1 2).wellFormed = false ∧
    (Instr.condw 4).wellFormed = false := by decide

theorem test_wellFormed_accepts :
    (Instr.mulWide 3 4 3 4).wellFormed = true ∧ (Instr.divfullU 0 15 0 0).wellFormed = true ∧
    (Instr.condw 3).wellFormed = true ∧ (Instr.fset 0 15).wellFormed = true := by decide

/-! ### Words written out from R70 and R74: RD = 4, RD2 = 5, RS1 = 1, RS2 = 2, RS3 = 3, IMM4 = 10, for CONDW 2 -/

/-- The fields of R70 apart: OP 0x0C, VAR 5, U 1, RD 4, RS1 1, RS2 2, RS3 3, RD2 5. -/
theorem test_decode_bit_by_bit :
    decode (0b001100#6 ++ 0b101#3 ++ 1#1 ++ 0#1 ++ 0b0100#4 ++ 0b0001#4 ++ 0b0010#4 ++ 0b0011#4 ++ 0b0101#4 ++ 0#1) =
      .ok (.mulCarryU 4 5 1 2 3) := by decide

theorem test_decode_constructors_and_the_move :
    decode 0x04080000 = .ok (.vzero 4) ∧
    decode 0x08080000 = .ok (.vone 4) ∧
    decode 0x0C080000 = .ok (.vmax 4) ∧
    decode 0x10080400 = .ok (.vfromu 4 2) ∧
    decode 0x14082000 = .ok (.vmov 4 1) := by decide

theorem test_decode_addition_and_subtraction_1 :
    decode 0x20082400 = .ok (.addWrap 4 1 2) ∧
    decode 0x20482400 = .ok (.addWrapU 4 1 2) ∧
    decode 0x20882400 = .ok (.addOvf 4 1 2) ∧
    decode 0x20C82400 = .ok (.addOvfU 4 1 2) ∧
    decode 0x21082400 = .ok (.addChk 4 1 2) ∧
    decode 0x21482400 = .ok (.addChkU 4 1 2) ∧
    decode 0x21882400 = .ok (.addUnchk 4 1 2) ∧
    decode 0x21C82400 = .ok (.addUnchkU 4 1 2) ∧
    decode 0x22082400 = .ok (.addSat 4 1 2) ∧
    decode 0x22482400 = .ok (.addSatU 4 1 2) ∧
    decode 0x22882400 = .ok (.addCarry 4 1 2) ∧
    decode 0x22C82400 = .ok (.addCarryU 4 1 2) := by decide

theorem test_decode_addition_and_subtraction_2 :
    decode 0x24082400 = .ok (.subWrap 4 1 2) ∧
    decode 0x24482400 = .ok (.subWrapU 4 1 2) ∧
    decode 0x24882400 = .ok (.subOvf 4 1 2) ∧
    decode 0x24C82400 = .ok (.subOvfU 4 1 2) ∧
    decode 0x25082400 = .ok (.subChk 4 1 2) ∧
    decode 0x25482400 = .ok (.subChkU 4 1 2) ∧
    decode 0x25882400 = .ok (.subUnchk 4 1 2) ∧
    decode 0x25C82400 = .ok (.subUnchkU 4 1 2) ∧
    decode 0x26082400 = .ok (.subSat 4 1 2) ∧
    decode 0x26482400 = .ok (.subSatU 4 1 2) ∧
    decode 0x26882400 = .ok (.subCarry 4 1 2) ∧
    decode 0x26C82400 = .ok (.subCarryU 4 1 2) := by decide

theorem test_decode_multiplication_1 :
    decode 0x30082400 = .ok (.mulWrap 4 1 2) ∧
    decode 0x30482400 = .ok (.mulWrapU 4 1 2) ∧
    decode 0x30882400 = .ok (.mulOvf 4 1 2) ∧
    decode 0x30C82400 = .ok (.mulOvfU 4 1 2) ∧
    decode 0x31082400 = .ok (.mulChk 4 1 2) ∧
    decode 0x31482400 = .ok (.mulChkU 4 1 2) ∧
    decode 0x31882400 = .ok (.mulUnchk 4 1 2) ∧
    decode 0x31C82400 = .ok (.mulUnchkU 4 1 2) ∧
    decode 0x32082400 = .ok (.mulSat 4 1 2) ∧
    decode 0x32482400 = .ok (.mulSatU 4 1 2) ∧
    decode 0x3308240A = .ok (.mulWide 4 5 1 2) ∧
    decode 0x3348240A = .ok (.mulWideU 4 5 1 2) := by decide

theorem test_decode_multiplication_2 :
    decode 0x3288246A = .ok (.mulCarry 4 5 1 2 3) ∧
    decode 0x32C8246A = .ok (.mulCarryU 4 5 1 2 3) := by decide

theorem test_decode_division_and_remainder_1 :
    decode 0x4008240A = .ok (.divfull 4 5 1 2) ∧
    decode 0x4048240A = .ok (.divfullU 4 5 1 2) ∧
    decode 0x44082400 = .ok (.divWrap 4 1 2) ∧
    decode 0x44482400 = .ok (.divWrapU 4 1 2) ∧
    decode 0x44882400 = .ok (.divOvf 4 1 2) ∧
    decode 0x44C82400 = .ok (.divOvfU 4 1 2) ∧
    decode 0x45082400 = .ok (.divChk 4 1 2) ∧
    decode 0x45482400 = .ok (.divChkU 4 1 2) ∧
    decode 0x45882400 = .ok (.divUnchk 4 1 2) ∧
    decode 0x45C82400 = .ok (.divUnchkU 4 1 2) ∧
    decode 0x46082400 = .ok (.divSat 4 1 2) ∧
    decode 0x46482400 = .ok (.divSatU 4 1 2) := by decide

theorem test_decode_division_and_remainder_2 :
    decode 0x48082400 = .ok (.remWrap 4 1 2) ∧
    decode 0x48482400 = .ok (.remWrapU 4 1 2) ∧
    decode 0x48882400 = .ok (.remOvf 4 1 2) ∧
    decode 0x48C82400 = .ok (.remOvfU 4 1 2) ∧
    decode 0x49082400 = .ok (.remChk 4 1 2) ∧
    decode 0x49482400 = .ok (.remChkU 4 1 2) ∧
    decode 0x49882400 = .ok (.remUnchk 4 1 2) ∧
    decode 0x49C82400 = .ok (.remUnchkU 4 1 2) ∧
    decode 0x4A082400 = .ok (.remSat 4 1 2) ∧
    decode 0x4A482400 = .ok (.remSatU 4 1 2) := by decide

theorem test_decode_modular_commands_and_gcd :
    decode 0x50082460 = .ok (.madd 4 1 2 3) ∧
    decode 0x54082460 = .ok (.msub 4 1 2 3) ∧
    decode 0x58082460 = .ok (.mmul 4 1 2 3) ∧
    decode 0x5C082460 = .ok (.mdiv 4 1 2 3) ∧
    decode 0x60082460 = .ok (.mrem 4 1 2 3) ∧
    decode 0x64082460 = .ok (.mpow 4 1 2 3) ∧
    decode 0x68082400 = .ok (.gcd 4 1 2) := by decide

theorem test_decode_powers_and_roots_1 :
    decode 0x70082400 = .ok (.powWrap 4 1 2) ∧
    decode 0x70482400 = .ok (.powWrapU 4 1 2) ∧
    decode 0x70882400 = .ok (.powOvf 4 1 2) ∧
    decode 0x70C82400 = .ok (.powOvfU 4 1 2) ∧
    decode 0x71082400 = .ok (.powChk 4 1 2) ∧
    decode 0x71482400 = .ok (.powChkU 4 1 2) ∧
    decode 0x71882400 = .ok (.powUnchk 4 1 2) ∧
    decode 0x71C82400 = .ok (.powUnchkU 4 1 2) ∧
    decode 0x72082400 = .ok (.powSat 4 1 2) ∧
    decode 0x72482400 = .ok (.powSatU 4 1 2) ∧
    decode 0x74082400 = .ok (.root 4 1 2) ∧
    decode 0x74482400 = .ok (.rootU 4 1 2) := by decide

theorem test_decode_powers_and_roots_2 :
    decode 0x78082000 = .ok (.sqrt 4 1) := by decide

theorem test_decode_primality :
    decode 0x7C002400 = .ok (.isprime 1 2) := by decide

theorem test_decode_logic_shifts_rotates_and_byte_order :
    decode 0x80082400 = .ok (.bitAnd 4 1 2) ∧
    decode 0x84082400 = .ok (.bitOr 4 1 2) ∧
    decode 0x88082400 = .ok (.bitXor 4 1 2) ∧
    decode 0x8C082000 = .ok (.bitNot 4 1) ∧
    decode 0x90082400 = .ok (.shl 4 1 2) ∧
    decode 0x94082400 = .ok (.shr 4 1 2) ∧
    decode 0x98082400 = .ok (.rotl 4 1 2) ∧
    decode 0x9C082400 = .ok (.rotr 4 1 2) ∧
    decode 0xA0082000 = .ok (.revbits 4 1) ∧
    decode 0xA4082000 = .ok (.bswap 4 1) ∧
    decode 0xA8082000 = .ok (.tobe 4 1) ∧
    decode 0xAC082000 = .ok (.tole 4 1) := by decide

theorem test_decode_counts :
    decode 0xB0082000 = .ok (.popcnt 4 1) ∧
    decode 0xB4082000 = .ok (.clz 4 1) ∧
    decode 0xB8082000 = .ok (.ctz 4 1) ∧
    decode 0xBC082000 = .ok (.clzw 4 1) ∧
    decode 0xC0082000 = .ok (.ctzw 4 1) := by decide

theorem test_decode_flag_and_cond_access :
    decode 0xD0082000 = .ok (.fget 4 1) ∧
    decode 0xD4080140 = .ok (.fset 4 10) ∧
    decode 0xD8080140 = .ok (.fclr 4 10) ∧
    decode 0xDC002140 = .ok (.ftest 1 10) ∧
    decode 0xE0000040 = .ok (.condw 2) := by decide
/-- DC-1 to DC-3. -/
theorem test_decode_reserved_opcodes :
    decode 0x00000000 = .error .illegalOpcode ∧ decode 0xFFFFFFFF = .error .illegalOpcode ∧
    decode 0x18000000 = .error .illegalOpcode := by decide

/-- DC-4 to DC-12. -/
theorem test_decode_broken_forms :
    decode 0x20024601 = .error .illegalForm ∧ decode 0x20224600 = .error .illegalForm ∧
    decode 0x23800000 = .error .illegalForm ∧ decode 0x23000000 = .error .illegalForm ∧
    decode 0x78424000 = .error .illegalForm ∧ decode 0x0402A000 = .error .illegalForm ∧
    decode 0x33062406 = .error .illegalForm ∧ decode 0x40002400 = .error .illegalForm ∧
    decode 0xE0000080 = .error .illegalForm := by decide

/-- DC-13, DC-14. -/
theorem test_decode_legal_edges :
    decode 0xD40201E0 = .ok (.fset 1 15) ∧ decode 0x22C24600 = .ok (.addCarryU 1 2 3) := by decide

/-- Words of 95_test_vectors.md from their commands: AS-18, MU-14, DV-8, FL-6, FL-10. -/
theorem test_encode_words :
    encode (.addCarryU 4 1 2) = 0x22C82400 ∧ encode (.mulCarry 4 5 1 2 3) = 0x3288246A ∧
    encode (.divfull 1 2 2 1) = 0x40024204 ∧ encode (.fclr 4 1) = 0xD8080020 ∧ encode (.condw 3) = 0xE0000060 := by
  decide

/-- The table's numbering: bit 0 is the least significant bit of the word. -/
theorem test_decodeTableWord :
    decodeTableWord 32 0x22C24600 = some (.addCarryU 1 2 3) ∧ decodeTableWord 32 0 = none := by decide

/-- DC-1, DC-10: a decode fault is taken, with FCMD the word. -/
theorem test_decode_faults_are_taken :
    faultAfter 0x00000000 (given .cfgA [] [] true) = some (.illegalOpcode, 0x00000000, 0x7B) ∧
    faultAfter 0x33062406 (given .cfgA [] [] true) = some (.illegalForm, 0x33062406, 0x7B) := by decide

/-! ### Constructors -/

/-- CN-1, `VZERO v4` (R101). -/
theorem test_vzero_cn_1 :
    bigAfter 0x04080000 (given .cfgA [] [] false) 4 =
      some (0, 0b0000, false, false) := by decide

/-- CN-2, `VONE v4` (R102). -/
theorem test_vone_cn_2 :
    bigAfter 0x08080000 (given .cfgA [] [] false) 4 =
      some (1, 0b0000, false, false) := by decide

/-- CN-3, `VMAX v4` (R103). -/
theorem test_vmax_cn_3 :
    bigAfter 0x0C080000 (given .cfgA [] [] false) 4 =
      some (top, 0b0000, false, false) := by decide

/-- CN-5, `VFROMU v4, s2` (R104). -/
theorem test_vfromu_cn_5 :
    bigAfter 0x10080400 (given .cfgA [] [(2, 2 ^ 128 - 1)] false) 4 =
      some (2 ^ 128 - 1, 0b0000, false, false) := by decide

/-- CN-6, `VMOV v4, v1` (R105). -/
theorem test_vmov_cn_6 :
    bigAfter 0x14082000 (given .cfgA [(1, 5, 0b1001)] [] false) 4 =
      some (5, 0b1001, false, false) := by decide

/-! ### Addition and subtraction -/

/-- AS-3, `ADD.WRAP v4, v1, v2` (R121). -/
theorem test_add_wrap_as_3 :
    bigAfter 0x20082400 (given .cfgA [(1, 2 ^ 128 - 1, 0), (2, 1, 0)] [] false) 4 =
      some (2 ^ 128, 0b0000, false, false) := by decide

/-- AS-4, `ADD.WRAP v4, v1, v2` (R121). -/
theorem test_add_wrap_as_4 :
    bigAfter 0x20082400 (given .cfgA [(1, top, 0b0010), (2, 2, 0)] [] false) 4 =
      some (1, 0b0011, false, false) := by decide

/-- AS-6, `ADD.WRAP.U v4, v1, s2` (R121). -/
theorem test_add_wrap_u_as_6 :
    bigAfter 0x20482400 (given .cfgA [(1, top, 0)] [(2, 1)] false) 4 =
      some (0, 0b0001, false, false) := by decide

/-- AS-33, `ADD.WRAP.U v4, v1, s2` (R121). -/
theorem test_add_wrap_u_as_33 :
    bigAfter 0x20482400 (given .cfgC [(1, 7, 0)] [(2, 0x100000005)] false) 4 =
      some (0xC, 0b0000, false, false) := by decide

/-- AS-7, `ADD.OVF v4, v1, v2` (R122). -/
theorem test_add_ovf_as_7 :
    bigAfter 0x20882400 (given .cfgA [(1, top, 0), (2, 1, 0)] [] false) 4 =
      some (0, 0b0001, true, false) := by decide

/-- AS-8, `ADD.OVF v4, v1, v2` (R122). -/
theorem test_add_ovf_as_8 :
    bigAfter 0x20882400 (given .cfgA [(1, 1, 0), (2, 1, 0)] [] false) 4 =
      some (2, 0b0000, false, false) := by decide

/-- AS-9, `ADD.CHK v4, v1, v2` (R123). -/
theorem test_add_chk_as_9 :
    bigAfter 0x21082400 (given .cfgA [(1, top, 0), (2, 1, 0)] [] false) 4 =
      some (0x7B, 0, false, true) := by decide

/-- AS-10, `ADD.CHK v4, v1, v2` (R123). -/
theorem test_add_chk_as_10 :
    bigAfter 0x21082400 (given .cfgA [(1, 5, 0), (2, 6, 0)] [] false) 4 =
      some (0xB, 0b0000, false, false) := by decide

/-- AS-11, `ADD.UNCHK v4, v1, v2` (R124). -/
theorem test_add_unchk_as_11 :
    faultAfter 0x21882400 (given .cfgA [(1, top, 0), (2, 1, 0)] [] false) =
      some (.uncheckedOverflow, 0x21882400, 0x7B) := by decide

/-- AS-12, `ADD.UNCHK v4, v1, v2` (R124). -/
theorem test_add_unchk_as_12 :
    bigAfter 0x21882400 (given .cfgA [(1, 5, 0), (2, 6, 0)] [] false) 4 =
      some (0xB, 0b0000, false, false) := by decide

/-- AS-13, `ADD.SAT v4, v1, v2` (R125). -/
theorem test_add_sat_as_13 :
    bigAfter 0x22082400 (given .cfgA [(1, top, 0), (2, 5, 0)] [] false) 4 =
      some (top, 0b0000, false, false) := by decide

/-- AS-14, `ADD.SAT v4, v1, v2` (R125). -/
theorem test_add_sat_as_14 :
    bigAfter 0x22082400 (given .cfgA [(1, top, 0b0001), (2, 5, 0)] [] false) 4 =
      some (top, 0b0001, false, false) := by decide

/-- AS-15, `ADD.CARRY v4, v1, v2` (R126). -/
theorem test_add_carry_as_15 :
    bigAfter 0x22882400 (given .cfgA [(1, top, 0), (2, 0, 0)] [] true) 4 =
      some (0, 0b0001, true, false) := by decide

/-- AS-17, `ADD.CARRY v4, v1, v2` (R126). -/
theorem test_add_carry_as_17 :
    bigAfter 0x22882400 (given .cfgA [(1, top, 0), (2, top, 0)] [] true) 4 =
      some (top, 0b0001, true, false) := by decide

/-- AS-18, `ADD.CARRY.U v4, v1, s2` (R126). -/
theorem test_add_carry_u_as_18 :
    bigAfter 0x22C82400 (given .cfgA [(1, top, 0)] [(2, 0)] true) 4 =
      some (0, 0b0001, true, false) := by decide

/-- AS-20, `SUB.WRAP v4, v1, v2` (R127). -/
theorem test_sub_wrap_as_20 :
    bigAfter 0x24082400 (given .cfgA [(1, 0, 0), (2, 1, 0)] [] false) 4 =
      some (top, 0b0010, false, false) := by decide

/-- AS-21, `SUB.WRAP v4, v1, v2` (R127). -/
theorem test_sub_wrap_as_21 :
    bigAfter 0x24082400 (given .cfgA [(1, 2 ^ 128, 0), (2, 1, 0)] [] false) 4 =
      some (2 ^ 128 - 1, 0b0000, false, false) := by decide

/-- AS-22, `SUB.WRAP.U v4, v1, s2` (R127). -/
theorem test_sub_wrap_u_as_22 :
    bigAfter 0x24482400 (given .cfgA [(1, 0xA, 0)] [(2, 0xB)] false) 4 =
      some (top, 0b0010, false, false) := by decide

/-- AS-23, `SUB.OVF v4, v1, v2` (R128). -/
theorem test_sub_ovf_as_23 :
    bigAfter 0x24882400 (given .cfgA [(1, 0, 0), (2, 1, 0)] [] false) 4 =
      some (top, 0b0010, true, false) := by decide

/-- AS-24, `SUB.OVF v4, v1, v2` (R128). -/
theorem test_sub_ovf_as_24 :
    bigAfter 0x24882400 (given .cfgA [(1, 7, 0), (2, 7, 0)] [] false) 4 =
      some (0, 0b0000, false, false) := by decide

/-- AS-25, `SUB.CHK v4, v1, v2` (R129). -/
theorem test_sub_chk_as_25 :
    bigAfter 0x25082400 (given .cfgA [(1, 3, 0), (2, 5, 0)] [] false) 4 =
      some (0x7B, 0, false, true) := by decide

/-- AS-26, `SUB.CHK v4, v1, v2` (R129). -/
theorem test_sub_chk_as_26 :
    bigAfter 0x25082400 (given .cfgA [(1, 5, 0), (2, 5, 0)] [] false) 4 =
      some (0, 0b0000, false, false) := by decide

/-- AS-27, `SUB.UNCHK v4, v1, v2` (R130). -/
theorem test_sub_unchk_as_27 :
    faultAfter 0x25882400 (given .cfgA [(1, 3, 0), (2, 5, 0)] [] false) =
      some (.uncheckedUnderflow, 0x25882400, 0x7B) := by decide

/-- AS-28, `SUB.UNCHK v4, v1, v2` (R130). -/
theorem test_sub_unchk_as_28 :
    bigAfter 0x25882400 (given .cfgA [(1, 5, 0), (2, 3, 0)] [] false) 4 =
      some (2, 0b0000, false, false) := by decide

/-- AS-29, `SUB.SAT v4, v1, v2` (R131). -/
theorem test_sub_sat_as_29 :
    bigAfter 0x26082400 (given .cfgA [(1, 3, 0), (2, 5, 0)] [] false) 4 =
      some (0, 0b0000, false, false) := by decide

/-- AS-31, `SUB.CARRY v4, v1, v2` (R132). -/
theorem test_sub_carry_as_31 :
    bigAfter 0x26882400 (given .cfgA [(1, 5, 0), (2, 3, 0)] [] true) 4 =
      some (1, 0b0000, false, false) := by decide

/-- AS-32, `SUB.CARRY v4, v1, v2` (R132). -/
theorem test_sub_carry_as_32 :
    bigAfter 0x26882400 (given .cfgA [(1, 0, 0), (2, top, 0)] [] true) 4 =
      some (0, 0b0010, true, false) := by decide

/-! ### Multiplication -/

/-- MU-2, `MUL.WRAP v4, v1, v2` (R143). -/
theorem test_mul_wrap_mu_2 :
    bigAfter 0x30082400 (given .cfgA [(1, 2 ^ 128, 0), (2, 2 ^ 128, 0)] [] false) 4 =
      some (0, 0b0001, false, false) := by decide

/-- MU-3, `MUL.WRAP v4, v1, v2` (R143). -/
theorem test_mul_wrap_mu_3 :
    bigAfter 0x30082400 (given .cfgA [(1, top, 0), (2, top, 0)] [] false) 4 =
      some (1, 0b0001, false, false) := by decide

/-- MU-4, `MUL.WRAP.U v4, v1, s2` (R143). -/
theorem test_mul_wrap_u_mu_4 :
    bigAfter 0x30482400 (given .cfgA [(1, 0xA, 0)] [(2, 0xA)] false) 4 =
      some (0x64, 0b0000, false, false) := by decide

/-- MU-5, `MUL.OVF v4, v1, v2` (R144). -/
theorem test_mul_ovf_mu_5 :
    bigAfter 0x30882400 (given .cfgA [(1, 3, 0), (2, 2 ^ 255, 0)] [] false) 4 =
      some (2 ^ 255, 0b0001, true, false) := by decide

/-- MU-6, `MUL.OVF v4, v1, v2` (R144). -/
theorem test_mul_ovf_mu_6 :
    bigAfter 0x30882400 (given .cfgA [(1, 2, 0), (2, 2 ^ 254, 0)] [] false) 4 =
      some (2 ^ 255, 0b0000, false, false) := by decide

/-- MU-7, `MUL.CHK v4, v1, v2` (R145). -/
theorem test_mul_chk_mu_7 :
    bigAfter 0x31082400 (given .cfgA [(1, 2 ^ 128, 0), (2, 2 ^ 128, 0)] [] false) 4 =
      some (0x7B, 0, false, true) := by decide

/-- MU-8, `MUL.CHK v4, v1, v2` (R145). -/
theorem test_mul_chk_mu_8 :
    bigAfter 0x31082400 (given .cfgA [(1, 2 ^ 127, 0), (2, 2, 0)] [] false) 4 =
      some (2 ^ 128, 0b0000, false, false) := by decide

/-- MU-9, `MUL.UNCHK v4, v1, v2` (R146). -/
theorem test_mul_unchk_mu_9 :
    faultAfter 0x31882400 (given .cfgA [(1, 2 ^ 128, 0), (2, 2 ^ 128, 0)] [] false) =
      some (.uncheckedOverflow, 0x31882400, 0x7B) := by decide

/-- MU-10, `MUL.SAT v4, v1, v2` (R147). -/
theorem test_mul_sat_mu_10 :
    bigAfter 0x32082400 (given .cfgA [(1, top, 0), (2, 2, 0)] [] false) 4 =
      some (top, 0b0000, false, false) := by decide

/-- MU-11, `MUL.SAT v4, v1, v2` (R147). -/
theorem test_mul_sat_mu_11 :
    bigAfter 0x32082400 (given .cfgA [(1, 2 ^ 127, 0), (2, 2, 0)] [] false) 4 =
      some (2 ^ 128, 0b0000, false, false) := by decide

/-- MU-12, `MUL.WIDE v4, v5, v1, v2` (R148). -/
theorem test_mul_wide_mu_12 :
    pairAfter 0x3308240A (given .cfgA [(1, top, 0b0010), (2, top, 0)] [] false) 4 5 =
      some (1, 0b0010, top - 1, 0b0010) := by decide

/-- MU-13, `MUL.WIDE.U v4, v5, v1, s2` (R148). -/
theorem test_mul_wide_u_mu_13 :
    pairAfter 0x3348240A (given .cfgA [(1, 2 ^ 255, 0)] [(2, 4)] false) 4 5 =
      some (0, 0b0000, 2, 0b0000) := by decide

/-- MU-14, `MUL.CARRY v4, v5, v1, v2, v3` (R149). -/
theorem test_mul_carry_mu_14 :
    pairAfter 0x3288246A (given .cfgA [(1, top, 0), (2, top, 0), (3, top, 0)] [] false) 4 5 =
      some (0, 0b0000, top, 0b0000) := by decide

/-- MU-15, `MUL.CARRY v4, v5, v1, v2, v3` (R149). -/
theorem test_mul_carry_mu_15 :
    pairAfter 0x3288246A (given .cfgA [(1, 0, 0), (2, 5, 0), (3, 9, 0)] [] false) 4 5 =
      some (9, 0b0000, 0, 0b0000) := by decide

/-! ### Division -/

/-- DV-6, `DIVFULL v4, v5, v1, v2` (R162). -/
theorem test_divfull_dv_6 :
    pairAfter 0x4008240A (given .cfgA [(1, 9, 0b0010), (2, 0, 0b0001)] [] false) 4 5 =
      some (top, 0b1111, 0, 0b1010) := by decide

/-- DV-8, `DIVFULL v1, v2, v2, v1` (R162). -/
theorem test_divfull_dv_8 :
    pairAfter 0x40024204 (given .cfgA [(2, 0x64, 0), (1, 7, 0)] [] false) 1 2 =
      some (0xE, 0b0000, 2, 0b0000) := by decide

/-- DV-7, `DIVFULL.U v4, v5, v1, s2` (R162). -/
theorem test_divfull_u_dv_7 :
    pairAfter 0x4048240A (given .cfgA [(1, 0x100000000000000000000000000000005, 0)] [(2, 2 ^ 64)] false) 4 5 =
      some (2 ^ 64, 0b0000, 5, 0b0000) := by decide

/-- DV-9, `DIV.WRAP v4, v1, v2` (R163). -/
theorem test_div_wrap_dv_9 :
    bigAfter 0x44082400 (given .cfgA [(1, 0x64, 0), (2, 7, 0)] [] false) 4 =
      some (0xE, 0b0000, false, false) := by decide

/-- DV-10, `DIV.WRAP v4, v1, v2` (R163). -/
theorem test_div_wrap_dv_10 :
    bigAfter 0x44082400 (given .cfgA [(1, 0x64, 0), (2, 0, 0)] [] false) 4 =
      some (top, 0b1101, false, false) := by decide

/-- DV-11, `DIV.OVF v4, v1, v2` (R164). -/
theorem test_div_ovf_dv_11 :
    bigAfter 0x44882400 (given .cfgA [(1, 0x64, 0), (2, 0, 0)] [] false) 4 =
      some (top, 0b1101, true, false) := by decide

/-- DV-12, `DIV.OVF v4, v1, v2` (R164). -/
theorem test_div_ovf_dv_12 :
    bigAfter 0x44882400 (given .cfgA [(1, 9, 0), (2, 3, 0)] [] false) 4 =
      some (3, 0b0000, false, false) := by decide

/-- DV-13, `DIV.CHK v4, v1, v2` (R165). -/
theorem test_div_chk_dv_13 :
    bigAfter 0x45082400 (given .cfgA [(1, 0x64, 0), (2, 0, 0)] [] false) 4 =
      some (0x7B, 0, false, true) := by decide

/-- DV-14, `DIV.CHK v4, v1, v2` (R165). -/
theorem test_div_chk_dv_14 :
    bigAfter 0x45082400 (given .cfgA [(1, 0x64, 0), (2, 7, 0)] [] false) 4 =
      some (0xE, 0b0000, false, false) := by decide

/-- DV-15, `DIV.UNCHK v4, v1, v2` (R166). -/
theorem test_div_unchk_dv_15 :
    faultAfter 0x45882400 (given .cfgA [(1, 0x64, 0), (2, 0, 0)] [] false) =
      some (.uncheckedDivzero, 0x45882400, 0x7B) := by decide

/-- DV-16, `DIV.UNCHK v4, v1, v2` (R166). -/
theorem test_div_unchk_dv_16 :
    bigAfter 0x45882400 (given .cfgA [(1, 0x64, 0), (2, 7, 0)] [] false) 4 =
      some (0xE, 0b0000, false, false) := by decide

/-- DV-17, `DIV.SAT v4, v1, v2` (R167). -/
theorem test_div_sat_dv_17 :
    bigAfter 0x46082400 (given .cfgA [(1, 0x64, 0b0001), (2, 0, 0)] [] false) 4 =
      some (top, 0b1001, false, false) := by decide

/-- DV-18, `DIV.SAT v4, v1, v2` (R167). -/
theorem test_div_sat_dv_18 :
    bigAfter 0x46082400 (given .cfgA [(1, 0x64, 0), (2, 7, 0)] [] false) 4 =
      some (0xE, 0b0000, false, false) := by decide

/-- DV-19, `DIV.WRAP.U v4, v1, s2` (R163). -/
theorem test_div_wrap_u_dv_19 :
    bigAfter 0x44482400 (given .cfgA [(1, top, 0)] [(2, 0)] false) 4 =
      some (top, 0b1101, false, false) := by decide

/-- DV-20, `REM.WRAP v4, v1, v2` (R168). -/
theorem test_rem_wrap_dv_20 :
    bigAfter 0x48082400 (given .cfgA [(1, 0x64, 0), (2, 7, 0)] [] false) 4 =
      some (2, 0b0000, false, false) := by decide

/-- DV-21, `REM.WRAP v4, v1, v2` (R168). -/
theorem test_rem_wrap_dv_21 :
    bigAfter 0x48082400 (given .cfgA [(1, 0x64, 0), (2, 0, 0)] [] false) 4 =
      some (0, 0b1000, false, false) := by decide

/-- DV-22, `REM.OVF v4, v1, v2` (R169). -/
theorem test_rem_ovf_dv_22 :
    bigAfter 0x48882400 (given .cfgA [(1, 0x64, 0), (2, 0, 0)] [] false) 4 =
      some (0, 0b1000, true, false) := by decide

/-- DV-23, `REM.CHK v4, v1, v2` (R170). -/
theorem test_rem_chk_dv_23 :
    bigAfter 0x49082400 (given .cfgA [(1, 0x64, 0), (2, 0, 0)] [] false) 4 =
      some (0x7B, 0, false, true) := by decide

/-- DV-24, `REM.UNCHK v4, v1, v2` (R171). -/
theorem test_rem_unchk_dv_24 :
    faultAfter 0x49882400 (given .cfgA [(1, 0x64, 0), (2, 0, 0)] [] false) =
      some (.uncheckedDivzero, 0x49882400, 0x7B) := by decide

/-- DV-25, `REM.SAT v4, v1, v2` (R172). -/
theorem test_rem_sat_dv_25 :
    bigAfter 0x4A082400 (given .cfgA [(1, 0x64, 0), (2, 0, 0)] [] false) 4 =
      some (0, 0b1000, false, false) := by decide

/-- DV-26, `REM.SAT v4, v1, v2` (R172). -/
theorem test_rem_sat_dv_26 :
    bigAfter 0x4A082400 (given .cfgA [(1, 0x64, 0), (2, 7, 0)] [] false) 4 =
      some (2, 0b0000, false, false) := by decide

/-- DV-27, `REM.WRAP.U v4, v1, s2` (R168). -/
theorem test_rem_wrap_u_dv_27 :
    bigAfter 0x48482400 (given .cfgA [(1, 0x100000000000000000000000000000000000000000000000003, 0)]
      [(2, 2 ^ 64)] false) 4 =
      some (3, 0b0000, false, false) := by decide

/-! ### Modular commands and GCD -/

/-- MD-1, `MADD v4, v1, v2, v3` (R181). -/
theorem test_madd_md_1 :
    bigAfter 0x50082460 (given .cfgA [(1, top - 1, 0), (2, top - 1, 0), (3, top, 0)] [] false) 4 =
      some (top - 2, 0b0000, false, false) := by decide

/-- MD-3, `MADD v4, v1, v2, v3` (R181). -/
theorem test_madd_md_3 :
    bigAfter 0x50082460 (given .cfgA [(1, 5, 0), (2, 6, 0), (3, 0, 0)] [] false) 4 =
      some (top, 0b1101, false, false) := by decide

/-- MD-4, `MSUB v4, v1, v2, v3` (R182). -/
theorem test_msub_md_4 :
    bigAfter 0x54082460 (given .cfgA [(1, 3, 0), (2, 5, 0), (3, 7, 0)] [] false) 4 =
      some (5, 0b0000, false, false) := by decide

/-- MD-5, `MSUB v4, v1, v2, v3` (R182). -/
theorem test_msub_md_5 :
    bigAfter 0x54082460 (given .cfgA [(1, 0xC, 0), (2, 5, 0), (3, 7, 0)] [] false) 4 =
      some (0, 0b0000, false, false) := by decide

/-- MD-6, `MMUL v4, v1, v2, v3` (R183). -/
theorem test_mmul_md_6 :
    bigAfter 0x58082460 (given .cfgA [(1, 2 ^ 255, 0), (2, 2 ^ 255, 0), (3, top, 0)] [] false) 4 =
      some (2 ^ 254, 0b0000, false, false) := by decide

/-- MD-7, `MMUL v4, v1, v2, v3` (R183). -/
theorem test_mmul_md_7 :
    bigAfter 0x58082460 (given .cfgA [(1, 6, 0), (2, 5, 0), (3, 7, 0)] [] false) 4 =
      some (2, 0b0000, false, false) := by decide

/-- MD-8, `MDIV v4, v1, v2, v3` (R184). -/
theorem test_mdiv_md_8 :
    bigAfter 0x5C082460 (given .cfgA [(1, 0x14, 0), (2, 6, 0), (3, 7, 0)] [] false) 4 =
      some (1, 0b0000, false, false) := by decide

/-- MD-9, `MDIV v4, v1, v2, v3` (R184). -/
theorem test_mdiv_md_9 :
    bigAfter 0x5C082460 (given .cfgA [(1, 0x14, 0), (2, 0xE, 0), (3, 7, 0)] [] false) 4 =
      some (top, 0b1101, false, false) := by decide

/-- MD-10, `MREM v4, v1, v2, v3` (R185). -/
theorem test_mrem_md_10 :
    bigAfter 0x60082460 (given .cfgA [(1, 0x14, 0), (2, 4, 0), (3, 7, 0)] [] false) 4 =
      some (2, 0b0000, false, false) := by decide

/-- MD-11, `MREM v4, v1, v2, v3` (R185). -/
theorem test_mrem_md_11 :
    bigAfter 0x60082460 (given .cfgA [(1, 0x14, 0), (2, 0xE, 0), (3, 7, 0)] [] false) 4 =
      some (0, 0b1000, false, false) := by decide

/-- MD-13, `MPOW v4, v1, v2, v3` (R186). -/
theorem test_mpow_md_13 :
    bigAfter 0x64082460 (given .cfgA [(1, 2, 0), (2, 3, 0), (3, 3, 0)] [] false) 4 =
      some (2, 0b0000, false, false) := by decide

/-- MD-17, `MPOW v4, v1, v2, v3` (R186). -/
theorem test_mpow_md_17 :
    bigAfter 0x64082460 (given .cfgA [(1, 2, 0b0100), (2, top, 0), (3, top, 0)] [] false) 4 =
      some (2 ^ 255, 0b0100, false, false) := by decide +kernel

/-- MD-20, `GCD v4, v1, v2` (R187). -/
theorem test_gcd_md_20 :
    bigAfter 0x68082400 (given .cfgA [(1, 2 ^ 255, 0), (2, 0x300000000000000000000000000000000, 0)] [] false) 4 =
      some (2 ^ 128, 0b0000, false, false) := by decide

/-- MD-21, `GCD v4, v1, v2` (R187). -/
theorem test_gcd_md_21 :
    faultAfter 0x68082400 (given .cfgA [(1, 0, 0), (2, 5, 0)] [] false) =
      some (.gcdZero, 0x68082400, 0x7B) := by decide

/-! ### Powers and roots -/

/-- PW-1, `POW.WRAP.U v4, v1, s2` (R202). -/
theorem test_pow_wrap_u_pw_1 :
    bigAfter 0x70482400 (given .cfgA [(1, 0xA, 0)] [(2, 0x1E)] false) 4 =
      some (0xc9f2c9cd04674edea40000000, 0b0000, false, false) := by decide

/-- PW-3, `POW.WRAP v4, v1, v2` (R202). -/
theorem test_pow_wrap_pw_3 :
    bigAfter 0x70082400 (given .cfgA [(1, 3, 0), (2, 0xA2, 0)] [] false) 4 =
      some (0xb2b6f77a278b4d09d6fd8182a7987cba5cc1c94195d05dc0786c0065f8db7c89, 0b0001, false, false) := by decide

/-- PW-8, `POW.WRAP v4, v1, v2` (R202). -/
theorem test_pow_wrap_pw_8 :
    bigAfter 0x70082400 (given .cfgA [(1, 2, 0), (2, top, 0)] [] false) 4 =
      some (0, 0b0001, false, false) := by decide +kernel

/-- PW-9, `POW.OVF v4, v1, v2` (R203). -/
theorem test_pow_ovf_pw_9 :
    bigAfter 0x70882400 (given .cfgA [(1, 3, 0), (2, 0xA2, 0)] [] false) 4 =
      some (0xb2b6f77a278b4d09d6fd8182a7987cba5cc1c94195d05dc0786c0065f8db7c89, 0b0001, true, false) := by decide

/-- PW-10, `POW.OVF v4, v1, v2` (R203). -/
theorem test_pow_ovf_pw_10 :
    bigAfter 0x70882400 (given .cfgA [(1, 3, 0), (2, 0xA1, 0)] [] false) 4 =
      some (0x90e7a7d36283c4589cff2b2b8d32d43e1eeb4315dc9ac9ead2ceaacca8492983, 0b0000, false, false) := by decide

/-- PW-11, `POW.CHK v4, v1, v2` (R204). -/
theorem test_pow_chk_pw_11 :
    bigAfter 0x71082400 (given .cfgA [(1, 3, 0), (2, 0xA2, 0)] [] false) 4 =
      some (0x7B, 0, false, true) := by decide

/-- PW-12, `POW.CHK v4, v1, v2` (R204). -/
theorem test_pow_chk_pw_12 :
    bigAfter 0x71082400 (given .cfgA [(1, 3, 0), (2, 0xA1, 0)] [] false) 4 =
      some (0x90e7a7d36283c4589cff2b2b8d32d43e1eeb4315dc9ac9ead2ceaacca8492983, 0b0000, false, false) := by decide

/-- PW-13, `POW.UNCHK v4, v1, v2` (R205). -/
theorem test_pow_unchk_pw_13 :
    faultAfter 0x71882400 (given .cfgA [(1, 3, 0), (2, 0xA2, 0)] [] false) =
      some (.uncheckedOverflow, 0x71882400, 0x7B) := by decide

/-- PW-14, `POW.SAT v4, v1, v2` (R206). -/
theorem test_pow_sat_pw_14 :
    bigAfter 0x72082400 (given .cfgA [(1, 3, 0), (2, 0xA2, 0)] [] false) 4 =
      some (top, 0b0000, false, false) := by decide

/-- PW-15, `POW.SAT.U v4, v1, s2` (R206). -/
theorem test_pow_sat_u_pw_15 :
    bigAfter 0x72482400 (given .cfgA [(1, 0xA, 0)] [(2, 0x64)] false) 4 =
      some (top, 0b0000, false, false) := by decide

/-- PW-21, `ROOT v4, v1, v2` (R207). -/
theorem test_root_pw_21 :
    faultAfter 0x74082400 (given .cfgA [(1, 5, 0), (2, 0, 0)] [] false) =
      some (.rootZeroExp, 0x74082400, 0x7B) := by decide

/-- PW-23, `ROOT v4, v1, v2` (R207). -/
theorem test_root_pw_23 :
    bigAfter 0x74082400 (given .cfgA [(1, 0x90e7a7d36283c4589cff2b2b8d32d43e1eeb4315dc9ac9ead2ceaacca8492982, 0),
      (2, 0xA1, 0)] [] false) 4 =
      some (2, 0b0000, false, false) := by decide

/-- PW-24, `ROOT.U v4, v1, s2` (R207). -/
theorem test_root_u_pw_24 :
    bigAfter 0x74482400 (given .cfgA [(1, 2 ^ 255, 0)] [(2, 5)] false) 4 =
      some (0x8000000000000, 0b0000, false, false) := by decide

/-- PW-28, `SQRT v4, v1` (R209). -/
theorem test_sqrt_pw_28 :
    bigAfter 0x78082000 (given .cfgA [(1, top, 0)] [] false) 4 =
      some (2 ^ 128 - 1, 0b0000, false, false) := by decide

/-- PW-30, `SQRT v4, v1` (R209). -/
theorem test_sqrt_pw_30 :
    bigAfter 0x78082000 (given .cfgA [(1, 3, 0)] [] false) 4 =
      some (1, 0b0000, false, false) := by decide

/-! ### Primality -/

/-- PR-9, `ISPRIME v1, s2` (R222). -/
theorem test_isprime_pr_9 :
    condAfter 0x7C002400 (given .cfgA [(1, 0x7FF, 0)] [(2, 1)] false) =
      some (true, false) := by decide

/-- PR-18, `ISPRIME v1, s2` (R222). -/
theorem test_isprime_pr_18 :
    condAfter 0x7C002400 (given .cfgA [(1, top - 188, 0)] [(2, 0xA)] false) =
      some (true, false) := by decide +kernel

/-! ### Logic, shifts, rotates and byte order -/

/-- BB-1, `AND v4, v1, v2` (R241). -/
theorem test_and_bb_1 :
    bigAfter 0x80082400 (given .cfgA [(1, 0xF0F0, 0b0001), (2, 0xFF00, 0)] [] false) 4 =
      some (0xF000, 0b0001, false, false) := by decide

/-- BB-2, `OR v4, v1, v2` (R242). -/
theorem test_or_bb_2 :
    bigAfter 0x84082400 (given .cfgA [(1, 0xF0F0, 0), (2, 0xFF00, 0)] [] false) 4 =
      some (0xFFF0, 0b0000, false, false) := by decide

/-- BB-3, `XOR v4, v1, v2` (R243). -/
theorem test_xor_bb_3 :
    bigAfter 0x88082400 (given .cfgA [(1, 0xF0F0, 0), (2, 0xFF00, 0)] [] false) 4 =
      some (0xFF0, 0b0000, false, false) := by decide

/-- BB-6, `NOT v4, v1` (R244). -/
theorem test_not_bb_6 :
    bigAfter 0x8C082000 (given .cfgA [(1, 2 ^ 128, 0b1000)] [] false) 4 =
      some (0xfffffffffffffffffffffffffffffffeffffffffffffffffffffffffffffffff, 0b1000, false, false) := by decide

/-- BB-9, `SHL v4, v1, s2` (R250). -/
theorem test_shl_bb_9 :
    bigAfter 0x90082400 (given .cfgA [(1, 3, 0)] [(2, 0xFF)] false) 4 =
      some (2 ^ 255, 0b0001, false, false) := by decide

/-- BB-11, `SHL v4, v1, s2` (R250). -/
theorem test_shl_bb_11 :
    bigAfter 0x90082400 (given .cfgA [(1, 1, 0)] [(2, 2 ^ 128 - 1)] false) 4 =
      some (0, 0b0001, false, false) := by decide

/-- BB-14, `SHR v4, v1, s2` (R251). -/
theorem test_shr_bb_14 :
    bigAfter 0x94082400 (given .cfgA [(1, 3, 0)] [(2, 1)] false) 4 =
      some (1, 0b0010, false, false) := by decide

/-- BB-16, `SHR v4, v1, s2` (R251). -/
theorem test_shr_bb_16 :
    bigAfter 0x94082400 (given .cfgA [(1, 5, 0)] [(2, 0x12C)] false) 4 =
      some (0, 0b0010, false, false) := by decide

/-- BB-20, `ROTL v4, v1, s2` (R252). -/
theorem test_rotl_bb_20 :
    bigAfter 0x98082400 (given .cfgA [(1, 2 ^ 255, 0)] [(2, 0x101)] false) 4 =
      some (1, 0b0000, false, false) := by decide

/-- BB-23, `ROTR v4, v1, s2` (R253). -/
theorem test_rotr_bb_23 :
    bigAfter 0x9C082400 (given .cfgA [(1, 6, 0b0010)] [(2, 2 ^ 128 - 1)] false) 4 =
      some (0xC, 0b0010, false, false) := by decide

/-- BB-25, `REVBITS v4, v1` (R260). -/
theorem test_revbits_bb_25 :
    bigAfter 0xA0082000 (given .cfgA [(1, 0x300000000000000000000000000000000, 0)] [] false) 4 =
      some (0xc0000000000000000000000000000000, 0b0000, false, false) := by decide +kernel

/-- BB-26, `BSWAP v4, v1` (R261). -/
theorem test_bswap_bb_26 :
    bigAfter 0xA4082000 (given .cfgA [(1, 0x102, 0)] [] false) 4 =
      some (0x201000000000000000000000000000000000000000000000000000000000000, 0b0000, false, false) := by decide

/-- BB-28, `TOBE v4, v1` (R262). -/
theorem test_tobe_bb_28 :
    bigAfter 0xA8082000 (given .cfgA [(1, 0x102, 0)] [] false) 4 =
      some (0x201000000000000000000000000000000000000000000000000000000000000, 0b0000, false, false) := by decide

/-- BB-30, `TOBE v4, v1` (R262). -/
theorem test_tobe_bb_30 :
    bigAfter 0xA8082000 (given .cfgH [(1, 0x102, 0)] [] false) 4 =
      some (0x102, 0b0000, false, false) := by decide

/-- BB-29, `TOLE v4, v1` (R263). -/
theorem test_tole_bb_29 :
    bigAfter 0xAC082000 (given .cfgA [(1, 0x102, 0)] [] false) 4 =
      some (0x102, 0b0000, false, false) := by decide

/-- BB-31, `TOLE v4, v1` (R263). -/
theorem test_tole_bb_31 :
    bigAfter 0xAC082000 (given .cfgH [(1, 0x102, 0)] [] false) 4 =
      some (0x201000000000000000000000000000000000000000000000000000000000000, 0b0000, false, false) := by decide

/-! ### Counts -/

/-- CT-3, `POPCNT s4, v1` (R271). -/
theorem test_popcnt_ct_3 :
    scalarAfter 0xB0082000 (given .cfgA [(1, 0xf00000000000000000000000000000000, 0)] [] false) 4 =
      some (4, false, false) := by decide +kernel

/-- CT-4, `CLZ s4, v1` (R272). -/
theorem test_clz_ct_4 :
    scalarAfter 0xB4082000 (given .cfgA [(1, 0, 0)] [] false) 4 =
      some (0x100, false, false) := by decide

/-- CT-7, `CLZ s4, v1` (R272). -/
theorem test_clz_ct_7 :
    scalarAfter 0xB4082000 (given .cfgA [(1, 2 ^ 128, 0)] [] false) 4 =
      some (0x7F, false, false) := by decide

/-- CT-8, `CTZ s4, v1` (R273). -/
theorem test_ctz_ct_8 :
    scalarAfter 0xB8082000 (given .cfgA [(1, 0, 0)] [] false) 4 =
      some (0x100, false, false) := by decide +kernel

/-- CT-9, `CTZ s4, v1` (R273). -/
theorem test_ctz_ct_9 :
    scalarAfter 0xB8082000 (given .cfgA [(1, 2 ^ 200, 0)] [] false) 4 =
      some (0xC8, false, false) := by decide +kernel

/-- CT-12, `CLZW s4, v1` (R274). -/
theorem test_clzw_ct_12 :
    scalarAfter 0xBC082000 (given .cfgA [(1, 1, 0)] [] false) 4 =
      some (1, false, false) := by decide

/-- CT-19, `CLZW s4, v1` (R274). -/
theorem test_clzw_ct_19 :
    scalarAfter 0xBC082000 (given .cfgC [(1, 2 ^ 100, 0)] [] false) 4 =
      some (4, false, false) := by decide

/-- CT-16, `CTZW s4, v1` (R275). -/
theorem test_ctzw_ct_16 :
    scalarAfter 0xC0082000 (given .cfgA [(1, 2 ^ 128, 0)] [] false) 4 =
      some (1, false, false) := by decide

/-- CT-20, `CTZW s4, v1` (R275). -/
theorem test_ctzw_ct_20 :
    scalarAfter 0xC0082000 (given .cfgC [(1, 2 ^ 100, 0)] [] false) 4 =
      some (3, false, false) := by decide

/-! ### Flags and COND -/

/-- FL-1, `FGET s4, v1` (R291). -/
theorem test_fget_fl_1 :
    scalarAfter 0xD0082000 (given .cfgA [(1, 7, 0b1001)] [] false) 4 =
      some (9, false, false) := by decide

/-- FL-4, `FSET v4, #8` (R293). -/
theorem test_fset_fl_4 :
    bigAfter 0xD4080100 (given .cfgA [(4, 9, 0b0001)] [] false) 4 =
      some (9, 0b1001, false, false) := by decide

/-- FL-6, `FCLR v4, #1` (R292). -/
theorem test_fclr_fl_6 :
    bigAfter 0xD8080020 (given .cfgA [(4, 9, 0b1001)] [] false) 4 =
      some (9, 0b1000, false, false) := by decide

/-- FL-7, `FTEST v1, #8` (R294). -/
theorem test_ftest_fl_7 :
    condAfter 0xDC002100 (given .cfgA [(1, 0, 0b1000)] [] false) =
      some (true, false) := by decide

/-- FL-8, `FTEST v1, #1` (R294). -/
theorem test_ftest_fl_8 :
    condAfter 0xDC002020 (given .cfgA [(1, 0, 0b1000)] [] false) =
      some (false, false) := by decide

/-- FL-12, `CONDW #1` (R295). -/
theorem test_condw_fl_12 :
    condAfter 0xE0000020 (given .cfgA [] [] false) =
      some (true, false) := by decide

/-! ### The host port (20_memory.md, 10_state.md) -/

/-- `s` with `x` its one turn to come. -/
def withTurn (s : State) (x : Turn) : State := { s with order := [x] }

/-- Boundary values in CFG-A: MAX with U, 1, 0, 2, 2^255, 2^128, 256 and 255 in V1 V2 V3 V5 V6 V8 V10 V11, and 0, 1,
2^128 - 1, 2, 256 and 255 in S1 to S6; COND.B is 1. -/
def edge : State :=
  given .cfgA [(1, top, 0b0010), (2, 1, 0), (3, 0, 0), (5, 2, 0), (6, 2 ^ 255, 0), (8, 2 ^ 128, 0), (10, 256, 0),
    (11, 255, 0)] [(1, 0), (2, 1), (3, 2 ^ 128 - 1), (4, 2), (5, 256), (6, 255)] true

/-- `edge` with the GCD command of MD-21 faulted, and the fault interrupt enabled. -/
def faulted : State :=
  { edge with status := { edge.status with fault := true }, cause := .gcdZero, fcmd := 0x68082400,
              ie := { doneIE := false, faultIE := true } }

/-- `edge` with the command `c` in flight and the completion interrupt enabled. -/
def running (c : Word) : State :=
  { edge with status := { edge.status with busy := true }, ifc := some c, ie := { doneIE := true, faultIE := false } }

/-- `edge` with a completion recorded and its interrupt raised. -/
def finished : State :=
  { edge with status := { edge.status with done := true }, ie := { doneIE := true, faultIE := false } }

/-- What a host operation leaves, as `f` sees it. -/
def hostAfter {α : Type} (op : HostOp) (s : State) (f : State → α) : Option α :=
  match step (withTurn s (.host op)) with
  | .next t => some (f t)
  | .fault _ => none
  | .refused _ => none

/-- P3, step 9: FACK. -/
theorem test_host_fack :
    hostAfter (.wrCsr 5 1) faulted (fun t => (t.status.fault, t.cause, t.fcmd, t.irq)) =
      some (false, .none, 0, false) := by decide

/-- R35: bits 31:2 of CTRL are ignored, so a faulted engine stays as it is. -/
theorem test_host_ctrl_ignores_upper_bits :
    hostAfter (.wrCsr 5 (2 ^ 32 - 4)) faulted (fun t => (t.status.fault, t.cause, t.fcmd, t.big 1)) =
      some (true, .gcdZero, 0x68082400, top) := by decide

/-- P3, step 6: a command offered while faulted is discarded, with LOST set. -/
theorem test_host_command_lost :
    hostAfter (.wrCsr 0 0x04080000) faulted (fun t => (t.status.lost, t.ifc, t.status.busy)) =
      some (true, none, false) := by decide

/-- P3, steps 7 and 8: CAUSE and FCMD as words; here GCD_ZERO, code 6. -/
theorem test_host_reads_record :
    hostAfter (.rdCsr 2) faulted State.returned = some [6] ∧
    hostAfter (.rdCsr 3) faulted State.returned = some [0x68082400] ∧
    hostAfter (.rdCsr 1) faulted State.returned = some [2] := by decide

/-- P3, step 13: STATUS is write-1-to-clear, and DONE drives IRQ. -/
theorem test_host_clears_done :
    finished.irq = true ∧
    hostAfter (.wrCsr 1 4) finished (fun t => (t.status.done, t.irq)) = some (false, false) ∧
    hostAfter (.wrCsr 1 8) finished (fun t => (t.status.done, t.irq)) = some (true, true) := by decide

/-- The values of CONFIG that 95_test_vectors.md gives for CFG-A, CFG-C and CFG-H. -/
theorem test_host_reads_config :
    hostAfter (.rdCsr 7) (given .cfgA [] [] false) State.returned = some [0x00000280] ∧
    hostAfter (.rdCsr 7) (given .cfgC [] [] false) State.returned = some [0x00000820] ∧
    hostAfter (.rdCsr 7) (given .cfgH [] [] false) State.returned = some [0x01000280] := by decide

/-- R7, R53: word 1 is the high half in CFG-A, and writing it keeps word 0 and the flags. -/
theorem test_host_writes_word :
    hostAfter (.wrWord 1 1 5) edge (fun t => (t.big 1, t.bigFlags 1)) = some (6 * 2 ^ 128 - 1, 0b0010) ∧
    hostAfter (.rdWord 1 1) edge State.returned = some [2 ^ 128 - 1] := by decide

/-- R54: a word index of N is out of range. -/
theorem test_host_word_out_of_range :
    hostAfter (.wrWord 1 2 5) edge (fun t => (t.big 1, t.status.lost)) = some (top, true) := by decide

/-- R55: a write while BUSY is discarded. -/
theorem test_host_write_while_busy :
    hostAfter (.wrS 1 7) (running 0x20082400) (fun t => (t.scalar 1, t.status.lost)) = some (0, true) := by decide

/-- R341: a soft reset abandons the command in flight and keeps V and S. -/
theorem test_host_sreset :
    hostAfter (.wrCsr 5 3) (running 0x20082400)
      (fun t => (t.ifc, t.status.busy, t.ie.doneIE, t.cond.b, t.big 1, t.scalar 2)) =
      some (none, false, false, false, top, 1) := by decide

/-- R53: a flag value of 16 is no operation of the port. -/
theorem test_host_value_too_wide : step (withTurn edge (.host (.wrFlags 1 16))) = .fault .hostValueTooWide := rfl

/-- P1, step 2, on its state: the carry out of the low limb goes to COND.B. -/
theorem test_p1_low_limb :
    bigAfter 0x22880400 (given .cfgA [(0, top, 0), (1, 5, 0), (2, 1, 0), (3, 7, 0)] [] false) 4 =
      some (0, 0b0001, true, false) := by decide

/-! ### Witnesses: concrete states and operands that meet the statements' hypotheses, each branch at its boundary -/

/-- AddWrapsAndReportsOverflow, AddCheckedUncheckedSaturating: sums of M and of M - 1, in both operand forms. -/
theorem witness_add_overflows_or_not :
    edge.cfg.modulus ≤ edge.big 1 + edge.big 2 ∧ ¬edge.cfg.modulus ≤ edge.big 1 + edge.big 3 ∧
    edge.cfg.modulus ≤ edge.big 1 + edge.scalar 2 % 2 ^ edge.cfg.wordBits ∧
    ¬edge.cfg.modulus ≤ edge.big 1 + edge.scalar 1 % 2 ^ edge.cfg.wordBits := by decide

/-- AddCarryChainsThroughCondB: sums of M and below it, with the carry in. -/
theorem witness_addCarry_overflows_or_not :
    edge.cfg.modulus ≤ edge.big 1 + edge.big 3 + edge.cond.b.toNat ∧
    ¬edge.cfg.modulus ≤ edge.big 2 + edge.big 2 + edge.cond.b.toNat ∧
    edge.cfg.modulus ≤ edge.big 1 + edge.scalar 1 % 2 ^ edge.cfg.wordBits + edge.cond.b.toNat ∧
    ¬edge.cfg.modulus ≤ edge.big 2 + edge.scalar 2 % 2 ^ edge.cfg.wordBits + edge.cond.b.toNat := by decide

/-- SubWrapsAndReportsBorrow, SubCheckedUncheckedSaturating: 0 - 1 and 1 - 1, in both operand forms. -/
theorem witness_sub_borrows_or_not :
    edge.big 3 < edge.big 2 ∧ ¬edge.big 2 < edge.big 2 ∧ edge.big 3 < edge.scalar 2 % 2 ^ edge.cfg.wordBits ∧
    ¬edge.big 2 < edge.scalar 2 % 2 ^ edge.cfg.wordBits := by decide

/-- SubCarryChainsThroughCondB: 1 - 1 and 2 - 1, with the borrow in. -/
theorem witness_subCarry_borrows_or_not :
    edge.big 2 < edge.big 2 + edge.cond.b.toNat ∧ ¬edge.big 5 < edge.big 2 + edge.cond.b.toNat ∧
    edge.big 2 < edge.scalar 2 % 2 ^ edge.cfg.wordBits + edge.cond.b.toNat ∧
    ¬edge.big 5 < edge.scalar 2 % 2 ^ edge.cfg.wordBits + edge.cond.b.toNat := by decide

/-- MulWrapsAndReportsOverflow, MulCheckedUncheckedSaturating: products of M and of M - 1, in both operand forms. -/
theorem witness_mul_overflows_or_not :
    edge.cfg.modulus ≤ edge.big 8 * edge.big 8 ∧ ¬edge.cfg.modulus ≤ edge.big 1 * edge.big 2 ∧
    edge.cfg.modulus ≤ edge.big 6 * (edge.scalar 4 % 2 ^ edge.cfg.wordBits) ∧
    ¬edge.cfg.modulus ≤ edge.big 1 * (edge.scalar 2 % 2 ^ edge.cfg.wordBits) := by decide

/-- PowerWrapsAndReportsOverflow, PowerCheckedUncheckedSaturating: 2^256 = M and 2^255, in both operand forms. -/
theorem witness_pow_overflows_or_not :
    edge.cfg.modulus ≤ edge.big 5 ^ edge.big 10 ∧ ¬edge.cfg.modulus ≤ edge.big 5 ^ edge.big 11 ∧
    edge.cfg.modulus ≤ edge.big 5 ^ (edge.scalar 5 % 2 ^ edge.cfg.wordBits) ∧
    ¬edge.cfg.modulus ≤ edge.big 5 ^ (edge.scalar 6 % 2 ^ edge.cfg.wordBits) := by decide

/-- WideMultiplyWritesBothHalves, DivideFullyWritesQuotientAndRemainder: two destinations, different and the same. -/
theorem witness_pair_of_destinations : ¬(4 : VReg) = 5 ∧ (3 : VReg) = 3 := by decide

/-- DivideFullyWritesQuotientAndRemainder, DivWrapNeverFaults, DivCheckedUncheckedSaturating, RemainderOfEveryVariant,
RootIsTheFloorRoot: the operand 0 and the operand 1, in both operand forms. -/
theorem witness_operand_zero_or_not :
    edge.big 3 = 0 ∧ ¬edge.big 2 = 0 ∧ edge.scalar 1 % 2 ^ edge.cfg.wordBits = 0 ∧
    ¬edge.scalar 2 % 2 ^ edge.cfg.wordBits = 0 := by decide

/-- ModularArithmeticIsExact, ModularPowerIsTheExactPower: the modulus 0 and the modulus 1.
ModularDivisionDividesTheReducedOperands: modulus 0; then a divisor that reduces to 0, and one that does not. -/
theorem witness_modulus_and_reduced_divisor :
    edge.big 3 = 0 ∧ ¬edge.big 2 = 0 ∧ (¬edge.big 5 = 0 ∧ edge.big 6 % edge.big 5 = 0) ∧
    ¬(edge.big 5 = 0 ∨ edge.big 2 % edge.big 5 = 0) := by decide

/-- GcdIsTheGreatestCommonDivisor: a zero operand on either side, and none. -/
theorem witness_gcd_zero_or_not :
    (edge.big 3 = 0 ∨ edge.big 2 = 0) ∧ (edge.big 2 = 0 ∨ edge.big 3 = 0) ∧
    ¬(edge.big 2 = 0 ∨ edge.big 1 = 0) := by decide

/-- EveryPrimeIsReportedPrime: V5 holds the prime 2. -/
theorem witness_prime_operand : Nat.Prime (edge.big 5) := by
  rw [show edge.big 5 = 2 by decide]; exact Nat.prime_two

/-- ShiftsReportLostBits: a left shift that reaches M and one that does not; a right shift that loses a 1-bit and one
that does not. -/
theorem witness_shift_loses_or_not :
    edge.cfg.modulus ≤ edge.big 6 * 2 ^ edge.scalar 2 ∧ ¬edge.cfg.modulus ≤ edge.big 6 * 2 ^ edge.scalar 1 ∧
    ¬edge.big 1 % 2 ^ edge.scalar 2 = 0 ∧ edge.big 1 % 2 ^ edge.scalar 1 = 0 := by decide

/-- ByteOrderFollowsTheHost: CFG-H and CFG-A. -/
theorem witness_host_order : (given .cfgH [] [] false).cfg.hostBigEndian = true ∧ ¬edge.cfg.hostBigEndian = true := by
  decide

/-- BitCountsCountBits, WordCountsCountZeroWords: the value 0 and the value 1. -/
theorem witness_count_zero_or_not : edge.big 3 = 0 ∧ ¬edge.big 2 = 0 := by decide

/-- CondwWritesBothCondBits: the masks 3 and 4. -/
theorem witness_condw_mask : (3 : Fin 16).val < 4 ∧ ¬(4 : Fin 16).val < 4 := by decide

/-- DecodeOfEncodeIsTheCommand, EveryCommandHasOneEncoding: a two-destination command with a shared source and
destination, and its word (DV-8). -/
theorem witness_well_formed_command :
    (Instr.divfull 1 2 2 1).wellFormed = true ∧ decode 0x40024204 = .ok (.divfull 1 2 2 1) := by decide

/-- IllegalOpcodeExactlyForReservedOpcodes, both sides: DC-1 to DC-3, and a defined opcode beside a reserved one. -/
theorem witness_reserved_opcode :
    bitsAt 0x00000000 26 6 ∈ reservedOpcodes ∧ bitsAt 0xFFFFFFFF 26 6 ∈ reservedOpcodes ∧
    bitsAt 0x18000000 26 6 ∈ reservedOpcodes ∧ bitsAt 0x17FFFFFF 26 6 ∉ reservedOpcodes := by decide

/-- IllegalFormExactlyForBrokenForms: each check of R303 broken alone, by DC-6, DC-8, DC-5, DC-4, DC-9, DC-12, DC-11 and
DC-10. -/
theorem witness_broken_forms :
    bitsAt 0x23800000 23 3 ∉ allowedVariants (bitsAt 0x23800000 26 6) ∧
    (bitsAt 0x78424000 22 1 = 1 ∧ wordFormAllowed (bitsAt 0x78424000 26 6) = false) ∧ bitsAt 0x20224600 21 1 = 1 ∧
    bitsAt 0x20024601 0 1 = 1 ∧
    (usedFields (bitsAt 0x0402A000 26 6) 0 = [true, false, false, false, false] ∧ bitsAt 0x0402A000 13 4 ≠ 0) ∧
    (bitsAt 0xE0000080 26 6 = 0x38 ∧ 4 ≤ bitsAt 0xE0000080 5 4) ∧
    (bitsAt 0x40002400 26 6 = 0x10 ∧ bitsAt 0x40002400 17 4 = bitsAt 0x40002400 1 4) ∧
    (bitsAt 0x33062406 26 6 = 0x0C ∧ 5 ≤ bitsAt 0x33062406 23 3 ∧
      bitsAt 0x33062406 17 4 = bitsAt 0x33062406 1 4) := by decide

/-- StepRunsTheDecodedCommand: the engine's turn and an empty order; nothing, a command and two faulting words in
flight. -/
theorem witness_engine_turn :
    (withTurn edge .engine).order = [.engine] ∧ edge.order = [] ∧ (withTurn edge .engine).ifc = none ∧
    (running 0x20082400).ifc = some 0x20082400 ∧ decode 0x20082400 = .ok (.addWrap 4 1 2) ∧
    (running 0).ifc = some 0 ∧ decode 0 = .error .illegalOpcode ∧
    (running 0x20024601).ifc = some 0x20024601 ∧ decode 0x20024601 = .error .illegalForm := by decide

/-- OfferedCommandIsAcceptedOrLost: while busy, while faulted, and while neither. -/
theorem witness_offered_command :
    (running 0).status.busy = true ∧ faulted.status.fault = true ∧
    ¬(edge.status.busy = true ∨ edge.status.fault = true) ∧
    (withTurn edge (.host (.wrCsr 0 (0x20082400 : Word).toNat))).order =
      [.host (.wrCsr 0 (0x20082400 : Word).toNat)] := by decide

/-- CommandsFaultExactlyAsListed: a command with no fault, one of each execution fault, and an ill-formed one. -/
theorem witness_execution_faults :
    executionFault (.addWrap 4 1 2) edge = none ∧
    executionFault (.addUnchk 4 1 2) edge = some .uncheckedOverflow ∧ executionFault (.addUnchk 4 1 3) edge = none ∧
    executionFault (.subUnchkU 4 3 2) edge = some .uncheckedUnderflow ∧
    executionFault (.remUnchk 4 1 3) edge = some .uncheckedDivzero ∧
    executionFault (.gcd 4 3 2) edge = some .gcdZero ∧ executionFault (.rootU 4 1 1) edge = some .rootZeroExp ∧
    (Instr.mulWide 3 3 1 2).wellFormed = false := by decide

/-- The control invariant holds in the faulted, the running and the finished state. -/
theorem witness_control_invariant :
    ControlInv faulted ∧ (∀ c, ControlInv (running c)) ∧ ControlInv finished ∧ ControlInv edge :=
  ⟨⟨rfl, by decide, by decide, by decide, by decide⟩,
    fun _ => ⟨rfl, fun _ => ⟨rfl, rfl⟩, ⟨fun h => absurd (show false = true from h) (by decide), fun h => absurd rfl h⟩,
      fun _ => rfl, fun _ => rfl⟩,
    ⟨rfl, by decide, by decide, by decide, by decide⟩, ⟨rfl, by decide, by decide, by decide, by decide⟩⟩

/-- FaultHoldsUntilAcknowledged: FACK alone and with a further bit, 1 and 2^32 - 3; the turns of the other clauses. -/
theorem witness_fault_and_acknowledge :
    faulted.status.fault = true ∧ (1 < 2 ^ 32 ∧ 1 % 2 = 1 ∧ 1 / 2 % 2 = 0) ∧
    (2 ^ 32 - 3 < 2 ^ 32 ∧ (2 ^ 32 - 3) % 2 = 1 ∧ (2 ^ 32 - 3) / 2 % 2 = 0) ∧
    (withTurn faulted .engine).order = [.engine] ∧
    (withTurn faulted (.host (.wrCsr 0 (0 : Word).toNat))).order = [.host (.wrCsr 0 (0 : Word).toNat)] ∧
    (withTurn faulted (.host (.rdFlags 1))).order = [.host (.rdFlags 1)] ∧
    (withTurn faulted (.host (.wrS 15 (2 ^ 128 - 1)))).order = [.host (.wrS 15 (2 ^ 128 - 1))] ∧
    2 ^ 128 - 1 < 2 ^ faulted.cfg.scalarBits := by decide

/-- ResetsClearTheControlRegisters: SRESET with FACK beside it, and the reset input. -/
theorem witness_resets :
    ((withTurn (running 0) (.host (.wrCsr 5 3))).order = [.host (.wrCsr 5 3)] ∧ 3 < 2 ^ 32 ∧ 3 / 2 % 2 = 1) ∧
    (withTurn (running 0) .hardReset).order = [.hardReset] := by decide

/-- The state `exec` answers with. -/
def nextOf (i : Instr) (s : State) : State :=
  match exec i s with
  | .next t => t
  | .fault _ => s
  | .refused _ => s

theorem exec_nextOf (i : Instr) (s : State) : exec i s = .next (nextOf i s) := by
  obtain ⟨t, h, -⟩ | ⟨c, -, h⟩ := Laws.exec_ends i s <;> simp [nextOf, h]

/-- EveryStepKeepsTheControlInvariant, EveryStepKeepsTheConfiguration: a step that answers a next state. -/
theorem witness_step_from_invariant :
    ControlInv (running 0x20082400) ∧ step (running 0x20082400) = .next (nextOf (.addWrap 4 1 2) (running 0x20082400)) :=
  ⟨witness_control_invariant.2.1 _, rfl⟩

/-- EveryCommandKeepsWhatItDoesNotName: commands that write neither bit of COND, only B, and only NONE. -/
theorem witness_cond_writers :
    (Instr.writesB (.addWrap 4 1 2) = false ∧ Instr.writesNone (.addWrap 4 1 2) = false) ∧
    Instr.writesNone (.addOvf 4 1 2) = false ∧ Instr.writesB (.addChk 4 1 2) = false := by decide

/-- FlagsAreSticky: RS1 holds U and the result keeps it; a fault and a CHK that answers None; FSET. -/
theorem witness_sticky_flags :
    exec (.addWrap 4 1 2) edge = .next (nextOf (.addWrap 4 1 2) edge) ∧
    (Instr.addWrap 4 1 2).self = some 1 ∧ (4 : VReg) ∈ (Instr.addWrap 4 1 2).vDests ∧
    (nextOf (.addWrap 4 1 2) edge).bigFlags 4 = 0b0011 ∧
    exec (.addUnchk 4 1 2) edge = .next (nextOf (.addUnchk 4 1 2) edge) ∧
    (nextOf (.addUnchk 4 1 2) edge).status.fault = true ∧
    exec (.addChk 4 1 2) edge = .next (nextOf (.addChk 4 1 2) edge) ∧
    (nextOf (.addChk 4 1 2) edge).cond.none = true ∧
    exec (.fset 1 1) edge = .next (nextOf (.fset 1 1) edge) ∧ (nextOf (.fset 1 1) edge).bigFlags 1 = 0b0011 :=
  ⟨exec_nextOf _ _, rfl, by decide, by decide, exec_nextOf _ _, by decide, exec_nextOf _ _, by decide, exec_nextOf _ _,
    by decide⟩

/-- FlagsAreAddedOnlyAsListed: each of the four flags added to a register that lacked it. -/
theorem witness_added_flags :
    exec (.addWrap 4 1 2) edge = .next (nextOf (.addWrap 4 1 2) edge) ∧
    ((nextOf (.addWrap 4 1 2) edge).bigFlags 4).getLsbD 0 = true ∧ (edge.bigFlags 1).getLsbD 0 = false ∧
    exec (.subWrap 4 3 2) edge = .next (nextOf (.subWrap 4 3 2) edge) ∧
    ((nextOf (.subWrap 4 3 2) edge).bigFlags 4).getLsbD 1 = true ∧ (edge.bigFlags 3).getLsbD 1 = false ∧
    exec (.divWrap 4 1 3) edge = .next (nextOf (.divWrap 4 1 3) edge) ∧
    ((nextOf (.divWrap 4 1 3) edge).bigFlags 4).getLsbD 2 = true ∧
    ((nextOf (.divWrap 4 1 3) edge).bigFlags 4).getLsbD 3 = true ∧ edge.bigFlags 4 = 0 :=
  ⟨exec_nextOf _ _, by decide, by decide, exec_nextOf _ _, by decide, by decide, exec_nextOf _ _, by decide, by decide,
    by decide⟩

/-- HostReadsWhatItWrote: an idle engine, the last word index and the largest values. -/
theorem witness_host_accesses :
    edge.status.busy = false ∧ 1 < edge.cfg.words ∧ 2 ^ 128 - 1 < 2 ^ edge.cfg.wordBits ∧
    2 ^ 128 - 1 < 2 ^ edge.cfg.scalarBits ∧
    (withTurn edge (.host (.wrWord 15 1 (2 ^ 128 - 1)))).order = [.host (.wrWord 15 1 (2 ^ 128 - 1))] ∧
    (withTurn edge (.host (.wrFlags 15 15))).order = [.host (.wrFlags 15 15)] ∧
    (withTurn edge (.host (.wrS 15 0))).order = [.host (.wrS 15 0)] ∧
    (withTurn edge (.host (.rdWord 0 0))).order = [.host (.rdWord 0 0)] ∧
    (withTurn edge (.host (.rdFlags 0))).order = [.host (.rdFlags 0)] ∧
    (withTurn edge (.host (.rdS 0))).order = [.host (.rdS 0)] := by decide

/-- BusyHostAccessIsDiscarded: a busy engine and the eight accesses. -/
theorem witness_busy_accesses :
    (running 0).status.busy = true ∧
    (withTurn (running 0) (.host (.wrWord 1 2 0))).order = [.host (.wrWord 1 2 0)] ∧ 0 < 2 ^ (running 0).cfg.wordBits ∧
    (withTurn (running 0) (.host (.wrFlags 1 15))).order = [.host (.wrFlags 1 15)] ∧
    (withTurn (running 0) (.host (.wrS 1 0))).order = [.host (.wrS 1 0)] ∧ 0 < 2 ^ (running 0).cfg.scalarBits ∧
    (withTurn (running 0) (.host (.wrCsr 6 3))).order = [.host (.wrCsr 6 3)] ∧
    (withTurn (running 0) (.host (.rdWord 1 1))).order = [.host (.rdWord 1 1)] ∧
    (withTurn (running 0) (.host (.rdFlags 1))).order = [.host (.rdFlags 1)] ∧
    (withTurn (running 0) (.host (.rdS 1))).order = [.host (.rdS 1)] ∧
    (withTurn (running 0) (.host (.rdCsr 6))).order = [.host (.rdCsr 6)] := by decide

/-- WordIndexOutOfRangeIsLost: the first index out of range. -/
theorem witness_word_out_of_range :
    edge.cfg.words ≤ 2 ∧ 2 ^ 128 - 1 < 2 ^ edge.cfg.wordBits ∧
    (withTurn edge (.host (.wrWord 1 2 (2 ^ 128 - 1)))).order = [.host (.wrWord 1 2 (2 ^ 128 - 1))] ∧
    (withTurn edge (.host (.rdWord 1 2))).order = [.host (.rdWord 1 2)] := by decide

/-- ControlRegistersReadAsTheirWords: the numbers 0 to 8, read while idle; STATUS also while busy. -/
theorem witness_csr_reads :
    (∀ c : Fin 9, (withTurn edge (.host (.rdCsr c.val))).order = [.host (.rdCsr c.val)] ∧ edge.status.busy = false) ∧
    (withTurn (running 0) (.host (.rdCsr 1))).order = [.host (.rdCsr 1)] := by decide

/-- ControlRegisterWrites: the numbers 1 to 8, with the largest word, and CTRL with bits 1:0 clear, at both ends. -/
theorem witness_csr_writes :
    (∀ c : Fin 9, (withTurn edge (.host (.wrCsr c.val (2 ^ 32 - 1)))).order = [.host (.wrCsr c.val (2 ^ 32 - 1))]) ∧
    2 ^ 32 - 1 < 2 ^ 32 ∧ edge.status.busy = false ∧
    (withTurn faulted (.host (.wrCsr 5 (2 ^ 32 - 4)))).order = [.host (.wrCsr 5 (2 ^ 32 - 4))] ∧ 2 ^ 32 - 4 < 2 ^ 32 ∧
    Nat.testBit (2 ^ 32 - 4) 0 = false ∧ Nat.testBit (2 ^ 32 - 4) 1 = false ∧ Nat.testBit 0 0 = false ∧
    Nat.testBit 0 1 = false := by decide

/-- InterruptFollowsDoneAndFault, its first clause: a command that completes. -/
theorem witness_interrupt_on_completion :
    ControlInv (running 0x20082400) ∧ (running 0x20082400).status.busy = true ∧
    exec (.addWrap 4 1 2) (running 0x20082400) = .next (nextOf (.addWrap 4 1 2) (running 0x20082400)) ∧
    Completed (running 0x20082400) (nextOf (.addWrap 4 1 2) (running 0x20082400)) :=
  ⟨witness_control_invariant.2.1 _, rfl, exec_nextOf _ _, ⟨rfl, rfl, rfl, rfl, rfl, rfl, rfl, rfl, rfl⟩⟩

/-- InterruptFollowsDoneAndFault, its first clause: a command that faults (GCD of 0, R187). -/
theorem witness_interrupt_on_fault :
    ControlInv (running 0x68086400) ∧ (running 0x68086400).status.busy = true ∧
    ∃ t, exec (.gcd 4 3 2) (running 0x68086400) = .next t ∧ FaultEntry .gcdZero (running 0x68086400) t :=
  let s := running 0x68086400
  ⟨witness_control_invariant.2.1 _, rfl, Laws.faults_unchkForm (x := Nat.gcd (s.big 3) (s.big 2))
    (congrArg (unchkForm 4 3 (Nat.gcd (s.big 3) (s.big 2)) · .gcdZero s)
      (show (s.big 3 == 0 || s.big 2 == 0) = true by decide))⟩

/-- InterruptFollowsDoneAndFault, its second clause: the five ways to clear an interrupt. -/
theorem witness_interrupt_clears :
    ControlInv finished ∧ finished.irq = true ∧ finished.status.fault = false ∧ finished.status.busy = false ∧
    Nat.testBit 4 2 = true ∧ Nat.testBit 2 0 = false ∧
    ControlInv faulted ∧ faulted.irq = true ∧ faulted.status.fault = true ∧ Nat.testBit 1 0 = true ∧
    Nat.testBit 1 1 = false ∧
    (hostAfter (.wrCsr 1 4) finished State.irq).isSome ∧ (hostAfter (.wrCsr 4 2) finished State.irq).isSome ∧
    (hostAfter (.wrCsr 0 0) finished State.irq).isSome ∧ (hostAfter (.wrCsr 5 1) faulted State.irq).isSome ∧
    (hostAfter (.wrCsr 4 1) faulted State.irq).isSome :=
  ⟨witness_control_invariant.2.2.1, rfl, rfl, rfl, by decide, by decide, witness_control_invariant.1, rfl, rfl, by decide,
    by decide, rfl, rfl, rfl, rfl, rfl⟩

/-- The reference algorithms: CarryChains, BothMultipliers, RestoringDivision, DoubleAndAdd and WordShifter, with the
largest operands of CFG-A, and the least divisor and modulus. -/
theorem witness_reference_operands :
    top < 2 ^ (128 * 2) ∧ top < Config.cfgA.modulus ∧ (0 < 1 ∧ 1 ≤ 1) ∧ (0 < 1 ∧ top < 2 ^ 256) ∧
    255 < Config.cfgA.totalBits ∧ 1 < Config.cfgA.words := by decide

/-- InverseCommandsRestoreTheValue: both pairs of commands run. -/
theorem witness_inverse_commands :
    exec (.rotl 4 1 2) edge = .next (nextOf (.rotl 4 1 2) edge) ∧
    exec (.rotr 4 4 2) (nextOf (.rotl 4 1 2) edge) = .next (nextOf (.rotr 4 4 2) (nextOf (.rotl 4 1 2) edge)) ∧
    (4 : VReg) ≠ 5 ∧ edge.big 2 ≠ 0 ∧ exec (.divfull 4 5 1 2) edge = .next (nextOf (.divfull 4 5 1 2) edge) :=
  ⟨exec_nextOf _ _, exec_nextOf _ _, by decide, by decide, exec_nextOf _ _⟩

end Sys2Proof.Tests
end

section
/-! Proofs of the statements about the host port (20_memory.md 2). -/

namespace Sys2Proof.Proofs

open Sys2Proof.Machine Sys2Proof.Claims

/-- A host turn is the host-port operation on the state without that turn (R62). -/
theorem step_of_host_turn {s : State} {op : HostOp} {rest : List Turn} (h : s.order = .host op :: rest) :
    step s = hostStep op { s with order := rest } := by
  simp only [step, h]

/-- A value that fits its unit is no fault of the port (R53). -/
theorem fitting_of_lt {w x : Nat} (h : x < 2 ^ w) (t : State) : fitting w x t = .next t := if_pos h

/-- A write that fails its check is discarded and sets LOST, whatever BUSY is (R54, log entry 13). -/
@[simp] theorem guardedWrite_false (s t : State) : guardedWrite false s t = s.markLost := by
  simp [guardedWrite]

/-- A read that fails its check answers an unspecified value, whatever BUSY is (R54). -/
@[simp] theorem guardedRead_false (w x : Nat) (s : State) : guardedRead false w x s = s.answerUnspecified w := by
  simp [guardedRead]

/-- A read that ends in an unspecified value: some value that fits the unit is returned, LOST is set, and the rest of
the machine keeps its state (R53, R54). -/
theorem unspecified_read_of_step {s : State} {rest : List Turn} {w : Nat}
    (h : step s = .next (State.answerUnspecified { s with order := rest } w)) :
    ∃ t x, step s = .next t ∧ x < 2 ^ w ∧ t.returned = x :: s.returned ∧ t.status.lost = true ∧
      OnlyHostSees s t rest :=
  ⟨_, _, h, (Config.freeBits w s.draws).isLt, rfl, rfl, rfl⟩

/-- Settles O51: the index check fails, so the write only marks LOST and the read answers an unspecified word. -/
theorem wordIndexOutOfRangeIsLost : Obligations.WordIndexOutOfRangeIsLost := by
  intro s rest v i hi
  have past_the_end : decide (i < s.cfg.words) = false := decide_eq_false (Nat.not_lt.mpr hi)
  constructor
  case left =>
    intro w hw turn
    rw [step_of_host_turn turn, hostStep, fitting_of_lt hw, past_the_end, guardedWrite_false]
    rfl
  case right =>
    intro turn
    apply unspecified_read_of_step
    rw [step_of_host_turn turn, hostStep, past_the_end, guardedRead_false]

end Sys2Proof.Proofs
end

section
/-! Proofs of the statements about the constructors and VMOV (40_construct.md), with the rule that turns a run of the
decoder on the fields of a form into an `Encodes` fact. -/

namespace Sys2Proof.Proofs

open Sys2Proof.Machine Sys2Proof.Laws Sys2Proof.Claims

/-- The word of the statements is the word of the model's form, whose reserved bits are zero (R70, R76). -/
theorem fieldWord_eq_form_word (op : Fin 64) (var : Fin 8) (u : Bool) (rd rs1 rs2 rs3 rd2 : Fin 16) :
    fieldWord op var u.toNat rd rs1 rs2 rs3 rd2 = (Fields.form op var u rd rs1 rs2 rs3 rd2).word := by
  simp [fieldWord, Fields.form, Fields.word]

/-- A form encodes the command that the decoder answers for its fields (R74, R80). -/
theorem encodes_of_decodeFields (op : Fin 64) (var : Fin 8) (u : Bool) {rd rs1 rs2 rs3 rd2 : Fin 16} {i : Instr}
    (h : decodeFields (.form op var u rd rs1 rs2 rs3 rd2) = .ok i) : Encodes op var u.toNat rd rs1 rs2 rs3 rd2 i := by
  rw [Encodes, fieldWord_eq_form_word, decode_word, h]

/-- `M - 1` is a value of a big register (R103). -/
theorem pred_modulus_lt (s : State) : s.cfg.modulus - 1 < s.cfg.modulus :=
  Nat.sub_lt (modulus_pos s) Nat.one_pos

/-- Settles O1: each meaning is one result form, fresh for the constructors and inheriting for VMOV, and each value is
below `M`; for VFROMU that is the width limit of R334, by which a whole scalar fits a big register. -/
theorem constructorsAndMoveWriteTheirValues : Obligations.ConstructorsAndMoveWriteTheirValues := by
  intro s rd rs1 rs2
  refine ⟨?vzero, ?vone, ?vmax, ?vfromu, ?vmov⟩
  case vzero => exact ⟨encodes_of_decodeFields 0x01 0 false rfl, writesBig_freshForm rfl (modulus_pos s)⟩
  case vone => exact ⟨encodes_of_decodeFields 0x02 0 false rfl, writesBig_freshForm rfl (one_lt_modulus s)⟩
  case vmax => exact ⟨encodes_of_decodeFields 0x03 0 false rfl, writesBig_freshForm rfl (pred_modulus_lt s)⟩
  case vfromu => exact ⟨encodes_of_decodeFields 0x04 0 false rfl, writesBig_freshForm rfl (scalar_lt_modulus s rs2)⟩
  case vmov => exact ⟨encodes_of_decodeFields 0x05 0 false rfl, writesBig_plain rfl (big_lt s rs1)⟩

end Sys2Proof.Proofs
end

section
/-! Rules for the commands with two operand forms (R11, R73) and the five variants of R72: what each result form writes
when its condition is that a result `x` reaches `M`. -/

namespace Sys2Proof.Proofs

open Sys2Proof.Machine Sys2Proof.Laws Sys2Proof.Safety Sys2Proof.Claims

/-- Both operand forms of a command call one meaning on an operand below `M`, so a law of that meaning holds of both. -/
theorem bothForms_of_law {big : VReg → VReg → VReg → Instr} {word : VReg → VReg → SReg → Instr}
    {P : Instr → State → VReg → VReg → Nat → Prop} (op : Fin 64) (var : Fin 8)
    (meaning : VReg → VReg → Nat → State → Answer)
    (law : ∀ {i s rd rs1 r}, r < s.cfg.modulus → exec i s = meaning rd rs1 r s → P i s rd rs1 r)
    (decode_big : ∀ rd rs1 rs2, decodeFields (.form op var false rd rs1 rs2 0 0) = .ok (big rd rs1 rs2) := by
      intros; rfl)
    (decode_word : ∀ rd rs1 rs2, decodeFields (.form op var true rd rs1 rs2 0 0) = .ok (word rd rs1 rs2) := by
      intros; rfl)
    (exec_big : ∀ rd rs1 rs2 s, exec (big rd rs1 rs2) s = meaning rd rs1 (bigOperand s rs2) s := by intros; rfl)
    (exec_word : ∀ rd rs1 rs2 s, exec (word rd rs1 rs2) s = meaning rd rs1 (wordOperand s rs2) s := by intros; rfl) :
    BothForms op var big word P := fun s rd rs1 =>
  ⟨fun rs2 => ⟨encodes_of_decodeFields op var false (decode_big rd rs1 rs2),
      law (big_lt s rs2) (exec_big rd rs1 rs2 s)⟩,
    fun rs2 => ⟨encodes_of_decodeFields op var true (decode_word rd rs1 rs2),
      law (word_lt_modulus s rs2) (exec_word rd rs1 rs2 s)⟩⟩

/-- Flags that gain OVERFLOW on a condition, as the statements write them (R22, R24). -/
theorem or_overflowFlags (f : FlagField) (c : Prop) [Decidable c] :
    f ||| overflowFlags (decide c) = if c then f ||| 0b0001#4 else f := by
  by_cases h : c
  case pos => simp [h, overflowFlags, flagsWhen, flagO]
  case neg => simp [h, overflowFlags, flagsWhen]

variable {i : Instr} {s : State} {rd rs1 : VReg} {x : Nat}

/-- WRAP: the result modulo `M`, with OVERFLOW added iff it reaches `M`. -/
theorem writesBig_valueForm_mod
    (h : exec i s = valueForm rd rs1 (x % s.cfg.modulus) (overflowFlags (decide (s.cfg.modulus ≤ x))) s) :
    WritesBig i s rd (x % s.cfg.modulus)
      (if s.cfg.modulus ≤ x then s.bigFlags rs1 ||| 0b0001#4 else s.bigFlags rs1) s.cond := by
  rw [← or_overflowFlags]
  exact writesBig_valueForm h (Nat.mod_lt x (modulus_pos s))

/-- OVF and CARRY: as WRAP, and COND.B tells whether the result reaches `M`. -/
theorem writesBig_ovfForm_mod
    (h : exec i s = ovfForm rd rs1 (x % s.cfg.modulus) (overflowFlags (decide (s.cfg.modulus ≤ x)))
      (decide (s.cfg.modulus ≤ x)) s) :
    WritesBig i s rd (x % s.cfg.modulus)
      (if s.cfg.modulus ≤ x then s.bigFlags rs1 ||| 0b0001#4 else s.bigFlags rs1)
      { s.cond with b := decide (s.cfg.modulus ≤ x) } := by
  rw [← or_overflowFlags]
  exact writesBig_ovfForm h (Nat.mod_lt x (modulus_pos s))

/-- CHK: None alone when the result reaches `M`, else the exact result. -/
theorem chkForm_mod_writes (h : exec i s = chkForm rd rs1 (x % s.cfg.modulus) (decide (s.cfg.modulus ≤ x)) s) :
    if s.cfg.modulus ≤ x then WritesCond i s { s.cond with none := true }
    else WritesBig i s rd x (s.bigFlags rs1) { s.cond with none := false } := by
  split
  case isTrue overflow =>
    rw [decide_eq_true overflow] at h
    exact writesCond_chkForm h
  case isFalse exact_result =>
    have hx : x < s.cfg.modulus := Nat.not_le.mp exact_result
    rw [decide_eq_false exact_result, Nat.mod_eq_of_lt hx] at h
    exact writesBig_chkForm h hx

/-- UNCHK: a fault when the result reaches `M`, else the exact result. -/
theorem unchkForm_mod_faults_or_writes {c : Cause}
    (h : exec i s = unchkForm rd rs1 (x % s.cfg.modulus) (decide (s.cfg.modulus ≤ x)) c s) :
    if s.cfg.modulus ≤ x then Faults i s c else WritesBig i s rd x (s.bigFlags rs1) s.cond := by
  split
  case isTrue overflow =>
    rw [decide_eq_true overflow] at h
    exact faults_unchkForm h
  case isFalse exact_result =>
    have hx : x < s.cfg.modulus := Nat.not_le.mp exact_result
    rw [decide_eq_false exact_result, Nat.mod_eq_of_lt hx] at h
    exact writesBig_unchkForm h hx

/-- SAT: the result clamped to `M - 1`, with no flag added. -/
theorem writesBig_clamped
    (h : exec i s = valueForm rd rs1 (if s.cfg.modulus ≤ x then s.cfg.modulus - 1 else x) 0 s) :
    WritesBig i s rd (if s.cfg.modulus ≤ x then s.cfg.modulus - 1 else x) (s.bigFlags rs1) s.cond := by
  apply writesBig_plain h
  split
  case isTrue => exact pred_modulus_lt s
  case isFalse exact_result => exact Nat.not_le.mp exact_result

end Sys2Proof.Proofs
end

section
/-! Proofs of the statements about the adder and subtractor (41_addsub.md). -/

namespace Sys2Proof.Proofs

open Sys2Proof.Machine Sys2Proof.Laws Sys2Proof.Safety Sys2Proof.Claims

/-- The minimum with `M - 1` is the clamp of R125. -/
theorem min_pred_eq_clamp {m x : Nat} (hm : 0 < m) : min x (m - 1) = if m ≤ x then m - 1 else x := by
  split <;> omega

/-- Settles O2: `addCarry` answers the sum modulo `M` with the test `M ≤ a + r`, which are the WRAP and OVF rules. -/
theorem addWrapsAndReportsOverflow : Obligations.AddWrapsAndReportsOverflow := by
  constructor
  case left => exact bothForms_of_law 0x08 0 addWrap fun _ h => writesBig_valueForm_mod h
  case right => exact bothForms_of_law 0x08 1 addOvf fun _ h => writesBig_ovfForm_mod h

/-- Settles O3: CHK and UNCHK are the rules of a result that may reach `M`, and SAT's minimum is the clamp. -/
theorem addCheckedUncheckedSaturating : Obligations.AddCheckedUncheckedSaturating := by
  refine ⟨?chk, ?unchk, ?sat⟩
  case chk => exact bothForms_of_law 0x08 2 addChk fun _ h => chkForm_mod_writes h
  case unchk => exact bothForms_of_law 0x08 3 addUnchk fun _ h => unchkForm_mod_faults_or_writes h
  case sat =>
    refine bothForms_of_law 0x08 4 addSat fun {_ s _ _ _} _ h => writesBig_clamped ?_
    rw [← min_pred_eq_clamp (modulus_pos s)]
    exact h

/-- Settles O4: ADD.CARRY is the OVF rule of the sum that counts COND.B in. -/
theorem addCarryChainsThroughCondB : Obligations.AddCarryChainsThroughCondB :=
  bothForms_of_law 0x08 5 addWithCarry fun _ h => writesBig_ovfForm_mod h

section

variable {i : Instr} {s : State} {rd rs1 : VReg} {r : Nat} {bin : Bool}

/-- Adding `M` on a borrow gives a value below `M`. -/
theorem wrapped_difference_lt {m a b : Nat} (borrow : a < b) (hm : 0 < m) : a + m - b < m := by omega

/-- A difference of a register's value is a value of a big register. -/
theorem difference_lt_modulus (s : State) (rs1 : VReg) (b : Nat) : s.big rs1 - b < s.cfg.modulus :=
  lt_of_le_of_lt (Nat.sub_le _ _) (big_lt s rs1)

/-- SUB.WRAP (R127): on a borrow `M` is added and UNDERFLOW set. -/
theorem subWrap_writes (hr : r < s.cfg.modulus) (h : exec i s = subWrap rd rs1 r s) :
    if s.big rs1 < r then WritesBig i s rd (s.big rs1 + s.cfg.modulus - r) (s.bigFlags rs1 ||| 0b0010#4) s.cond
    else WritesBig i s rd (s.big rs1 - r) (s.bigFlags rs1) s.cond := by
  split
  case isTrue borrow =>
    rw [subWrap, subBorrow_borrow hr borrow] at h
    exact writesBig_valueForm h (wrapped_difference_lt borrow (modulus_pos s))
  case isFalse no_borrow =>
    rw [subWrap, subBorrow_exact (big_lt s rs1) no_borrow] at h
    exact writesBig_plain h (difference_lt_modulus s rs1 r)

/-- SUB.OVF and SUB.CARRY (R128, R132): as WRAP with the borrow in counted, and the borrow out goes to COND.B. -/
theorem subBorrow_ovfForm_writes (hr : r < s.cfg.modulus)
    (h : exec i s = ovfForm rd rs1 (subBorrow s.cfg.modulus (s.big rs1) r bin).1
      (underflowFlags (subBorrow s.cfg.modulus (s.big rs1) r bin).2) (subBorrow s.cfg.modulus (s.big rs1) r bin).2 s) :
    if s.big rs1 < r + bin.toNat then
      WritesBig i s rd (s.big rs1 + s.cfg.modulus - (r + bin.toNat)) (s.bigFlags rs1 ||| 0b0010#4)
        { s.cond with b := true }
    else WritesBig i s rd (s.big rs1 - (r + bin.toNat)) (s.bigFlags rs1) { s.cond with b := false } := by
  split
  case isTrue borrow =>
    rw [subBorrow_borrow hr borrow] at h
    exact writesBig_ovfForm h (wrapped_difference_lt borrow (modulus_pos s))
  case isFalse no_borrow =>
    rw [subBorrow_exact (big_lt s rs1) no_borrow] at h
    rw [← flags_or_zero (s.bigFlags rs1)]
    exact writesBig_ovfForm h (difference_lt_modulus s rs1 (r + bin.toNat))

/-- SUB.CHK (R129): None alone on a borrow. -/
theorem subChk_writes (hr : r < s.cfg.modulus) (h : exec i s = subChk rd rs1 r s) :
    if s.big rs1 < r then WritesCond i s { s.cond with none := true }
    else WritesBig i s rd (s.big rs1 - r) (s.bigFlags rs1) { s.cond with none := false } := by
  split
  case isTrue borrow =>
    rw [subChk, subBorrow_borrow hr borrow] at h
    exact writesCond_chkForm h
  case isFalse no_borrow =>
    rw [subChk, subBorrow_exact (big_lt s rs1) no_borrow] at h
    exact writesBig_chkForm h (difference_lt_modulus s rs1 r)

/-- SUB.UNCHK (R130): a fault on a borrow. -/
theorem subUnchk_writes_or_faults (hr : r < s.cfg.modulus) (h : exec i s = subUnchk rd rs1 r s) :
    if s.big rs1 < r then Faults i s .uncheckedUnderflow
    else WritesBig i s rd (s.big rs1 - r) (s.bigFlags rs1) s.cond := by
  split
  case isTrue borrow =>
    rw [subUnchk, subBorrow_borrow hr borrow] at h
    exact faults_unchkForm h
  case isFalse no_borrow =>
    rw [subUnchk, subBorrow_exact (big_lt s rs1) no_borrow] at h
    exact writesBig_unchkForm h (difference_lt_modulus s rs1 r)

/-- SUB.SAT (R131): the natural difference is 0 on a borrow. -/
theorem subSat_writes (h : exec i s = subSat rd rs1 r s) :
    if s.big rs1 < r then WritesBig i s rd 0 (s.bigFlags rs1) s.cond
    else WritesBig i s rd (s.big rs1 - r) (s.bigFlags rs1) s.cond := by
  have written := writesBig_plain h (difference_lt_modulus s rs1 r)
  split
  case isTrue borrow => rwa [Nat.sub_eq_zero_of_le (Nat.le_of_lt borrow)] at written
  case isFalse => exact written

end

/-- Settles O5: the WRAP rule, and the OVF rule with no borrow in. -/
theorem subWrapsAndReportsBorrow : Obligations.SubWrapsAndReportsBorrow := by
  constructor
  case left => exact bothForms_of_law 0x09 0 subWrap subWrap_writes
  case right => exact bothForms_of_law 0x09 1 subOvf fun hr h => subBorrow_ovfForm_writes (bin := false) hr h

/-- Settles O6: one rule for each of CHK, UNCHK and SAT. -/
theorem subCheckedUncheckedSaturating : Obligations.SubCheckedUncheckedSaturating := by
  refine ⟨?chk, ?unchk, ?sat⟩
  case chk => exact bothForms_of_law 0x09 2 subChk subChk_writes
  case unchk => exact bothForms_of_law 0x09 3 subUnchk subUnchk_writes_or_faults
  case sat => exact bothForms_of_law 0x09 4 subSat fun _ h => subSat_writes h

/-- Settles O7: SUB.CARRY is the OVF rule with COND.B as the borrow in. -/
theorem subCarryChainsThroughCondB : Obligations.SubCarryChainsThroughCondB :=
  bothForms_of_law 0x09 5 subWithBorrow fun hr h => subBorrow_ovfForm_writes hr h

end Sys2Proof.Proofs
end

section
/-! Rules for the commands with two destinations (R74, R77): one law of the meaning settles both operand forms, and the
same destination twice is ILLEGAL_FORM. -/

namespace Sys2Proof.Proofs

open Sys2Proof.Machine Sys2Proof.Laws Sys2Proof.Claims

/-- A form the decoder refuses for its fields is an ILLEGAL_FORM word (R76, R77). -/
theorem decode_fieldWord_of_decodeFields (op : Fin 64) (var : Fin 8) (u : Bool) {rd rs1 rs2 rs3 rd2 : Fin 16}
    {e : DecodeFault} (h : decodeFields (.form op var u rd rs1 rs2 rs3 rd2) = .error e) :
    decode (fieldWord op var u.toNat rd rs1 rs2 rs3 rd2) = .error e := by
  rw [fieldWord_eq_form_word, decode_word, h]

/-- One operand form of a two-destination command: what the decoder answers for equal and for different destinations,
and a fact `Q` of the command for different ones. -/
theorem pairForm_decodes (op : Fin 64) (var : Fin 8) (u : Bool) {rd rs1 rs2 rs3 rd2 : Fin 16} {i : Instr} {Q : Prop}
    (hdec : decodeFields (.form op var u rd rs1 rs2 rs3 rd2) =
      if rd == rd2 then .error .illegalForm else .ok i)
    (hQ : rd ≠ rd2 → Q) :
    if rd = rd2 then decode (fieldWord op var u.toNat rd rs1 rs2 rs3 rd2) = .error .illegalForm
    else Encodes op var u.toNat rd rs1 rs2 rs3 rd2 i ∧ Q := by
  split
  case isTrue same =>
    exact decode_fieldWord_of_decodeFields op var u (hdec.trans (if_pos (beq_iff_eq.mpr same)))
  case isFalse different =>
    exact ⟨encodes_of_decodeFields op var u (hdec.trans (if_neg (mt beq_iff_eq.mp different))), hQ different⟩

/-- Both operand forms of a two-destination command call one meaning on an operand below `M`, so a law of that meaning
for different destinations holds of both. -/
theorem pairForms_of_law {big : VReg → VReg → VReg → VReg → Instr} {word : VReg → VReg → VReg → SReg → Instr}
    {P : Instr → State → VReg → VReg → VReg → Nat → Prop} (op : Fin 64) (var : Fin 8) (rs3 : VReg)
    (meaning : VReg → VReg → VReg → Nat → State → Answer)
    (law : ∀ {i s rd rd2 rs1 r}, rd ≠ rd2 → r < s.cfg.modulus → exec i s = meaning rd rd2 rs1 r s →
      P i s rd rd2 rs1 r)
    (decode_big : ∀ rd rd2 rs1 rs2, decodeFields (.form op var false rd rs1 rs2 rs3 rd2) =
      if rd == rd2 then .error .illegalForm else .ok (big rd rd2 rs1 rs2) := by intros; rfl)
    (decode_word : ∀ rd rd2 rs1 rs2, decodeFields (.form op var true rd rs1 rs2 rs3 rd2) =
      if rd == rd2 then .error .illegalForm else .ok (word rd rd2 rs1 rs2) := by intros; rfl)
    (exec_big : ∀ rd rd2 rs1 rs2 s, exec (big rd rd2 rs1 rs2) s = meaning rd rd2 rs1 (bigOperand s rs2) s := by
      intros; rfl)
    (exec_word : ∀ rd rd2 rs1 rs2 s, exec (word rd rd2 rs1 rs2) s = meaning rd rd2 rs1 (wordOperand s rs2) s := by
      intros; rfl) :
    PairForms op var rs3 big word P := fun s rd rd2 rs1 =>
  ⟨fun rs2 => pairForm_decodes op var false (decode_big rd rd2 rs1 rs2) fun different =>
      law different (big_lt s rs2) (exec_big rd rd2 rs1 rs2 s),
    fun rs2 => pairForm_decodes op var true (decode_word rd rd2 rs1 rs2) fun different =>
      law different (word_lt_modulus s rs2) (exec_word rd rd2 rs1 rs2 s)⟩

end Sys2Proof.Proofs
end

section
/-! Proofs of the statements about the multiplier (42_multiply.md). -/

namespace Sys2Proof.Proofs

open Sys2Proof.Machine Sys2Proof.Laws Sys2Proof.Safety Sys2Proof.Claims

/-- The high half of a product is nonzero exactly when the product reaches `M` (R140, R143). -/
theorem mulFull_high_ne_zero_iff {m : Nat} (hm : 0 < m) (a r : Nat) : (mulFull m a r 0).2 ≠ 0 ↔ m ≤ a * r :=
  Nat.div_ne_zero_iff.trans (and_iff_right hm.ne')

/-- The multiplier's test of the high half is the overflow test of the statements (R140, R143). -/
theorem mulFull_high_bne_zero {m : Nat} (hm : 0 < m) (a r : Nat) :
    ((mulFull m a r 0).2 != 0) = decide (m ≤ a * r) := by
  rw [Bool.eq_iff_iff, bne_iff_ne, decide_eq_true_iff]
  exact mulFull_high_ne_zero_iff hm a r

/-- The two halves are the base-`M` digits of the exact result (R140). -/
theorem eq_mulFull_halves (m a r c : Nat) : a * r + c = (mulFull m a r c).2 * m + (mulFull m a r c).1 :=
  (Nat.div_add_mod' (a * r + c) m).symm

/-- With operands and addend below `M` the high half is below `M`, since `(M - 1) * (M - 1) + (M - 1) < M * M` (R148,
R149). -/
theorem mulFull_high_lt {m a r c : Nat} (ha : a < m) (hr : r < m) (hc : c < m) : (mulFull m a r c).2 < m := by
  apply Nat.div_lt_of_lt_mul
  calc a * r + c < a * r + m := Nat.add_lt_add_left hc _
    _ ≤ a * m + m := Nat.add_le_add_right (Nat.mul_le_mul_left a hr.le) m
    _ = (a + 1) * m := (Nat.succ_mul a m).symm
    _ ≤ m * m := Nat.mul_le_mul_right m ha

/-- SAT's choice by the high half is the clamp of the product to `M - 1` (R147). -/
theorem mulFull_clamp {m : Nat} (hm : 0 < m) (a r : Nat) :
    (if (mulFull m a r 0).2 = 0 then (mulFull m a r 0).1 else m - 1) = if m ≤ a * r then m - 1 else a * r := by
  by_cases overflow : m ≤ a * r
  case pos => rw [if_pos overflow, if_neg ((mulFull_high_ne_zero_iff hm a r).mpr overflow)]
  case neg =>
    rw [if_neg overflow, if_pos (not_not.mp (mt (mulFull_high_ne_zero_iff hm a r).mp overflow))]
    exact Nat.mod_eq_of_lt (Nat.not_le.mp overflow)

section

variable (rd rs1 : VReg) (r : Nat) (s : State)

/-- MUL.WRAP is the WRAP form of the product (R143). -/
theorem mulWrap_eq : mulWrap rd rs1 r s =
    valueForm rd rs1 (s.big rs1 * r % s.cfg.modulus) (overflowFlags (decide (s.cfg.modulus ≤ s.big rs1 * r))) s := by
  rw [← mulFull_high_bne_zero (modulus_pos s)]; rfl

/-- MUL.OVF is the OVF form of the product (R144). -/
theorem mulOvf_eq : mulOvf rd rs1 r s =
    ovfForm rd rs1 (s.big rs1 * r % s.cfg.modulus) (overflowFlags (decide (s.cfg.modulus ≤ s.big rs1 * r)))
      (decide (s.cfg.modulus ≤ s.big rs1 * r)) s := by
  rw [← mulFull_high_bne_zero (modulus_pos s)]; rfl

/-- MUL.CHK is the CHK form of the product (R145). -/
theorem mulChk_eq : mulChk rd rs1 r s =
    chkForm rd rs1 (s.big rs1 * r % s.cfg.modulus) (decide (s.cfg.modulus ≤ s.big rs1 * r)) s := by
  rw [← mulFull_high_bne_zero (modulus_pos s)]; rfl

/-- MUL.UNCHK is the UNCHK form of the product (R146). -/
theorem mulUnchk_eq : mulUnchk rd rs1 r s =
    unchkForm rd rs1 (s.big rs1 * r % s.cfg.modulus) (decide (s.cfg.modulus ≤ s.big rs1 * r)) .uncheckedOverflow
      s := by
  rw [← mulFull_high_bne_zero (modulus_pos s)]; rfl

/-- MUL.SAT writes the clamped product (R147). -/
theorem mulSat_eq : mulSat rd rs1 r s =
    valueForm rd rs1 (if s.cfg.modulus ≤ s.big rs1 * r then s.cfg.modulus - 1 else s.big rs1 * r) 0 s := by
  rw [← mulFull_clamp (modulus_pos s)]; rfl

end

/-- MUL.WIDE and MUL.CARRY (R148, R149): the two halves of the exact result, each with RS1's flags. -/
theorem mulPair_writes {i : Instr} {s : State} {rd rd2 rs1 : VReg} {r c : Nat} (hne : rd ≠ rd2)
    (hr : r < s.cfg.modulus) (hc : c < s.cfg.modulus) (h : exec i s = mulPair rd rd2 rs1 r c s) :
    ∃ lo hi, lo < s.cfg.modulus ∧ hi < s.cfg.modulus ∧ s.big rs1 * r + c = hi * s.cfg.modulus + lo ∧
      WritesPair i s rd rd2 lo (s.bigFlags rs1) hi (s.bigFlags rs1) := by
  have low_lt : (mulFull s.cfg.modulus (s.big rs1) r c).1 < s.cfg.modulus := Nat.mod_lt _ (modulus_pos s)
  have high_lt := mulFull_high_lt (big_lt s rs1) hr hc
  have written := writesPair_pairForm hne h low_lt high_lt
  rw [flags_or_zero] at written
  exact ⟨_, _, low_lt, high_lt, eq_mulFull_halves _ _ _ _, written⟩

/-- Settles O8: the WRAP and OVF rules of a result that may reach `M`, with the product as the result. -/
theorem mulWrapsAndReportsOverflow : Obligations.MulWrapsAndReportsOverflow := by
  constructor
  case left => exact bothForms_of_law 0x0C 0 mulWrap fun _ h => writesBig_valueForm_mod (h.trans (mulWrap_eq ..))
  case right => exact bothForms_of_law 0x0C 1 mulOvf fun _ h => writesBig_ovfForm_mod (h.trans (mulOvf_eq ..))

/-- Settles O9: the CHK, UNCHK and SAT rules of a result that may reach `M`, with the product as the result. -/
theorem mulCheckedUncheckedSaturating : Obligations.MulCheckedUncheckedSaturating := by
  refine ⟨?chk, ?unchk, ?sat⟩
  case chk => exact bothForms_of_law 0x0C 2 mulChk fun _ h => chkForm_mod_writes (h.trans (mulChk_eq ..))
  case unchk =>
    exact bothForms_of_law 0x0C 3 mulUnchk fun _ h => unchkForm_mod_faults_or_writes (h.trans (mulUnchk_eq ..))
  case sat => exact bothForms_of_law 0x0C 4 mulSat fun _ h => writesBig_clamped (h.trans (mulSat_eq ..))

/-- Settles O10: both commands are the pair rule, with the addend 0 for WIDE and RS3's value for CARRY. -/
theorem wideMultiplyWritesBothHalves : Obligations.WideMultiplyWritesBothHalves := by
  constructor
  case left =>
    exact pairForms_of_law 0x0C 6 0 (fun rd rd2 rs1 r => mulPair rd rd2 rs1 r 0) fun {_ s _ _ _ _} hne hr h =>
      mulPair_writes hne hr (modulus_pos s) h
  case right =>
    intro rs3
    exact pairForms_of_law 0x0C 5 rs3 (fun rd rd2 rs1 r s => mulPair rd rd2 rs1 r (s.big rs3) s)
      fun {_ s _ _ _ _} hne hr h => mulPair_writes hne hr (big_lt s rs3) h

end Sys2Proof.Proofs
end

section
/-! Proofs of the statements about the long-division unit (43_divide.md). A variant's result form is read twice: with the
zero divisor's sentinel and with the exact result, so one rule per form serves DIV and REM. -/

namespace Sys2Proof.Proofs

open Sys2Proof.Machine Sys2Proof.Laws Sys2Proof.Safety Sys2Proof.Claims

/-- `DivFull` component by component, its flags written as bits (R24, R160). -/
theorem divFull_eq (m a r : Nat) :
    divFull m a r =
      { quot := if r = 0 then m - 1 else a / r, quotNew := if r = 0 then 0b1101#4 else 0,
        rem := if r = 0 then 0 else a % r, remNew := if r = 0 then 0b1000#4 else 0 } := by
  by_cases zero : r = 0
  case pos => simp only [divFull, if_pos zero]; rfl
  case neg => simp only [divFull, if_neg zero]

/-- SAT adds DIVIDED_BY_ZERO exactly on a zero divisor (R167). -/
theorem flagsWhen_beq_zero_flagD (r : Nat) : flagsWhen (r == 0) flagD = if r = 0 then 0b1000#4 else 0 := by
  simp only [flagsWhen, beq_iff_eq, flagD]

section

variable {i : Instr} {s : State} {rd rs1 : VReg} {sentinel x r : Nat} {new : FlagField}

/-- WRAP and SAT: on a zero divisor the sentinel with its flags, else the result with no flag added. -/
theorem writesBig_valueForm_divisor
    (h : exec i s = valueForm rd rs1 (if r = 0 then sentinel else x) (if r = 0 then new else 0) s)
    (sentinel_lt : sentinel < s.cfg.modulus) (x_lt : x < s.cfg.modulus) :
    if r = 0 then WritesBig i s rd sentinel (s.bigFlags rs1 ||| new) s.cond
    else WritesBig i s rd x (s.bigFlags rs1) s.cond := by
  split
  case isTrue zero =>
    rw [if_pos zero, if_pos zero] at h
    exact writesBig_valueForm h sentinel_lt
  case isFalse nonzero =>
    rw [if_neg nonzero, if_neg nonzero] at h
    exact writesBig_plain h x_lt

/-- OVF: as WRAP, and COND.B tells a zero divisor. -/
theorem writesBig_ovfForm_divisor
    (h : exec i s = ovfForm rd rs1 (if r = 0 then sentinel else x) (if r = 0 then new else 0) (r == 0) s)
    (sentinel_lt : sentinel < s.cfg.modulus) (x_lt : x < s.cfg.modulus) :
    if r = 0 then WritesBig i s rd sentinel (s.bigFlags rs1 ||| new) { s.cond with b := true }
    else WritesBig i s rd x (s.bigFlags rs1) { s.cond with b := false } := by
  split
  case isTrue zero =>
    rw [if_pos zero, if_pos zero, beq_iff_eq.mpr zero] at h
    exact writesBig_ovfForm h sentinel_lt
  case isFalse nonzero =>
    rw [if_neg nonzero, if_neg nonzero, beq_false_of_ne nonzero] at h
    rw [← flags_or_zero (s.bigFlags rs1)]
    exact writesBig_ovfForm h x_lt

/-- CHK: None alone on a zero divisor, else the result with None cleared. -/
theorem chkForm_divisor_writes (h : exec i s = chkForm rd rs1 (if r = 0 then sentinel else x) (r == 0) s)
    (x_lt : x < s.cfg.modulus) :
    if r = 0 then WritesCond i s { s.cond with none := true }
    else WritesBig i s rd x (s.bigFlags rs1) { s.cond with none := false } := by
  split
  case isTrue zero =>
    rw [beq_iff_eq.mpr zero] at h
    exact writesCond_chkForm h
  case isFalse nonzero =>
    rw [if_neg nonzero, beq_false_of_ne nonzero] at h
    exact writesBig_chkForm h x_lt

/-- UNCHK: a fault on a zero divisor, else the result. -/
theorem unchkForm_divisor_faults_or_writes {c : Cause}
    (h : exec i s = unchkForm rd rs1 (if r = 0 then sentinel else x) (r == 0) c s) (x_lt : x < s.cfg.modulus) :
    if r = 0 then Faults i s c else WritesBig i s rd x (s.bigFlags rs1) s.cond := by
  split
  case isTrue zero =>
    rw [beq_iff_eq.mpr zero] at h
    exact faults_unchkForm h
  case isFalse nonzero =>
    rw [if_neg nonzero, beq_false_of_ne nonzero] at h
    exact writesBig_unchkForm h x_lt

end

section

variable (s : State) (rs1 : VReg) (r : Nat)

/-- A quotient of a register's value is a value of a big register. -/
theorem quotient_lt_modulus : s.big rs1 / r < s.cfg.modulus := (Nat.div_le_self _ r).trans_lt (big_lt s rs1)

/-- A remainder of a register's value is a value of a big register. -/
theorem remainder_lt_modulus : s.big rs1 % r < s.cfg.modulus := (Nat.mod_le _ r).trans_lt (big_lt s rs1)

end

/-- DIVFULL (R162): the two sentinels with their flags, or quotient and remainder with RS1's flags. -/
theorem divideFully_writes {i : Instr} {s : State} {rd rd2 rs1 : VReg} {r : Nat} (hne : rd ≠ rd2)
    (h : exec i s = divideFully rd rd2 rs1 r s) :
    if r = 0 then
      WritesPair i s rd rd2 (s.cfg.modulus - 1) (s.bigFlags rs1 ||| 0b1101#4) 0 (s.bigFlags rs1 ||| 0b1000#4)
    else
      ∃ q m, s.big rs1 = q * r + m ∧ m < r ∧ WritesPair i s rd rd2 q (s.bigFlags rs1) m (s.bigFlags rs1) := by
  rw [divideFully, divFull_eq] at h
  split
  case isTrue zero =>
    simp only [if_pos zero] at h
    exact writesPair_pairForm hne h (pred_modulus_lt s) (modulus_pos s)
  case isFalse nonzero =>
    simp only [if_neg nonzero] at h
    have written := writesPair_pairForm hne h (quotient_lt_modulus s rs1 r) (remainder_lt_modulus s rs1 r)
    rw [flags_or_zero] at written
    exact ⟨_, _, (Nat.div_add_mod' (s.big rs1) r).symm, Nat.mod_lt _ (Nat.pos_of_ne_zero nonzero), written⟩

/-- Settles O11: the pair rule of `DivFull`, whose quotient and remainder are the Euclidean ones. -/
theorem divideFullyWritesQuotientAndRemainder : Obligations.DivideFullyWritesQuotientAndRemainder :=
  pairForms_of_law 0x10 0 0 divideFully fun hne _ h => divideFully_writes hne h

/-- Settles O12: the WRAP and OVF rules of a divisor, with the quotient as the result. -/
theorem divWrapNeverFaults : Obligations.DivWrapNeverFaults := by
  constructor
  case left =>
    refine bothForms_of_law 0x11 0 divWrap fun {_ s _ rs1 r} _ h => ?_
    rw [divWrap, divFull_eq] at h
    exact writesBig_valueForm_divisor h (pred_modulus_lt s) (quotient_lt_modulus s rs1 r)
  case right =>
    refine bothForms_of_law 0x11 1 divOvf fun {_ s _ rs1 r} _ h => ?_
    rw [divOvf, divFull_eq] at h
    exact writesBig_ovfForm_divisor h (pred_modulus_lt s) (quotient_lt_modulus s rs1 r)

/-- Settles O13: the CHK and UNCHK rules of a divisor, and for SAT the WRAP rule with D as the sentinel's one flag. -/
theorem divCheckedUncheckedSaturating : Obligations.DivCheckedUncheckedSaturating := by
  refine ⟨?chk, ?unchk, ?sat⟩
  case chk =>
    refine bothForms_of_law 0x11 2 divChk fun {_ s _ rs1 r} _ h => ?_
    rw [divChk, divFull_eq] at h
    exact chkForm_divisor_writes h (quotient_lt_modulus s rs1 r)
  case unchk =>
    refine bothForms_of_law 0x11 3 divUnchk fun {_ s _ rs1 r} _ h => ?_
    rw [divUnchk, divFull_eq] at h
    exact unchkForm_divisor_faults_or_writes h (quotient_lt_modulus s rs1 r)
  case sat =>
    refine bothForms_of_law 0x11 4 divSat fun {_ s _ rs1 r} _ h => ?_
    rw [divSat, divFull_eq, flagsWhen_beq_zero_flagD] at h
    exact writesBig_valueForm_divisor h (pred_modulus_lt s) (quotient_lt_modulus s rs1 r)

/-- REM.WRAP and REM.SAT (R168, R172), one meaning: the remainder, or 0 with DIVIDED_BY_ZERO. -/
theorem remWrap_writes {i : Instr} {s : State} {rd rs1 : VReg} {r : Nat} (h : exec i s = remWrap rd rs1 r s) :
    if r = 0 then WritesBig i s rd 0 (s.bigFlags rs1 ||| 0b1000#4) s.cond
    else WritesBig i s rd (s.big rs1 % r) (s.bigFlags rs1) s.cond := by
  rw [remWrap, divFull_eq] at h
  exact writesBig_valueForm_divisor h (modulus_pos s) (remainder_lt_modulus s rs1 r)

/-- Settles O14: the rules of a divisor with the remainder as the result and 0 as its sentinel. -/
theorem remainderOfEveryVariant : Obligations.RemainderOfEveryVariant := by
  refine ⟨?wrap, ?ovf, ?chk, ?unchk, ?sat⟩
  case wrap => exact bothForms_of_law 0x12 0 remWrap fun _ h => remWrap_writes h
  case ovf =>
    refine bothForms_of_law 0x12 1 remOvf fun {_ s _ rs1 r} _ h => ?_
    rw [remOvf, divFull_eq] at h
    exact writesBig_ovfForm_divisor h (modulus_pos s) (remainder_lt_modulus s rs1 r)
  case chk =>
    refine bothForms_of_law 0x12 2 remChk fun {_ s _ rs1 r} _ h => ?_
    rw [remChk, divFull_eq] at h
    exact chkForm_divisor_writes h (remainder_lt_modulus s rs1 r)
  case unchk =>
    refine bothForms_of_law 0x12 3 remUnchk fun {_ s _ rs1 r} _ h => ?_
    rw [remUnchk, divFull_eq] at h
    exact unchkForm_divisor_faults_or_writes h (remainder_lt_modulus s rs1 r)
  case sat => exact bothForms_of_law 0x12 4 remSat fun _ h => remWrap_writes h

end Sys2Proof.Proofs
end

section
/-! Proofs of the statements about the modular commands, GCD and their reference algorithm (44_modular.md): the prologue
of R180 is read once, so each command owes only its result for a nonzero modulus. -/

namespace Sys2Proof.Proofs

open Sys2Proof.Machine Sys2Proof.Laws Sys2Proof.Safety Sys2Proof.Claims

/-- A command of format R3 decodes from its form, so a law of the command settles the statement (R74, R180). -/
theorem modularForm_of_law {cmd : VReg → VReg → VReg → VReg → Instr}
    {P : Instr → State → VReg → VReg → Nat → Nat → Prop} (op : Fin 64)
    (law : ∀ s rd rs1 rs2 rs3, P (cmd rd rs1 rs2 rs3) s rd rs1 (s.big rs2) (s.big rs3))
    (decode_cmd : ∀ rd rs1 rs2 rs3, decodeFields (.form op 0 false rd rs1 rs2 rs3 0) = .ok (cmd rd rs1 rs2 rs3) := by
      intros; rfl) :
    ModularForm op cmd P := fun s rd rs1 rs2 rs3 =>
  ⟨encodes_of_decodeFields op 0 false (decode_cmd rd rs1 rs2 rs3), law s rd rs1 rs2 rs3⟩

section

variable {i : Instr} {s : State} {rd rs1 : VReg} {m x : Nat} {new : FlagField}

/-- The prologue (R180): a zero modulus writes the all-ones sentinel with O, I and D; for any other one the command is
its result form. -/
theorem modularForm_prologue {Q : Prop} (h : exec i s = modularForm rd rs1 m x new s)
    (body : 0 < m → exec i s = valueForm rd rs1 x new s → Q) :
    if m = 0 then WritesBig i s rd (s.cfg.modulus - 1) (s.bigFlags rs1 ||| 0b1101#4) s.cond else Q := by
  rw [modularForm] at h
  split
  case isTrue zero => exact writesBig_valueForm (h.trans (if_pos zero)) (pred_modulus_lt s)
  case isFalse nonzero => exact body (Nat.pos_of_ne_zero nonzero) (h.trans (if_neg nonzero))

/-- A result reduced modulo `m` is written as it is, with no flag added (R180). -/
theorem modularForm_residue_writes (hm : m < s.cfg.modulus) (h : exec i s = modularForm rd rs1 m (x % m) 0 s) :
    if m = 0 then WritesBig i s rd (s.cfg.modulus - 1) (s.bigFlags rs1 ||| 0b1101#4) s.cond
    else WritesBig i s rd (x % m) (s.bigFlags rs1) s.cond :=
  modularForm_prologue h fun m_pos value => writesBig_plain value ((Nat.mod_lt x m_pos).trans hm)

end

section

variable (rd rs1 rs2 rs3 : VReg) (s : State)

/-- Reducing the operands first does not change a sum modulo `m` (R181). -/
theorem execMadd_eq :
    execMadd rd rs1 rs2 rs3 s = modularForm rd rs1 (s.big rs3) ((s.big rs1 + s.big rs2) % s.big rs3) 0 s := by
  rw [execMadd, ← Nat.add_mod]

/-- Reducing the operands first does not change a product modulo `m` (R183). -/
theorem execMmul_eq :
    execMmul rd rs1 rs2 rs3 s = modularForm rd rs1 (s.big rs3) (s.big rs1 * s.big rs2 % s.big rs3) 0 s := by
  rw [execMmul, ← Nat.mul_mod]

/-- Square-and-multiply on the reduced base gives the power modulo `m` (R186). -/
theorem execMpow_eq :
    execMpow rd rs1 rs2 rs3 s = modularForm rd rs1 (s.big rs3) (s.big rs1 ^ s.big rs2 % s.big rs3) 0 s := by
  rw [execMpow, powMod_eq, ← Nat.pow_mod]

end

/-- MSUB's difference of reduced operands is reduced (R182). -/
theorem modularDifference_lt {m a r : Nat} (ha : a < m) (hr : r < m) :
    (if r ≤ a then a - r else a + m - r) < m := by
  split <;> omega

/-- Adding the subtrahend to MSUB's difference gives the minuend back modulo `m` (R182). -/
theorem modularDifference_add {m a r : Nat} (ha : a < m) (hr : r < m) :
    ((if r ≤ a then a - r else a + m - r) + r) % m = a := by
  split
  case isTrue no_borrow => rw [Nat.sub_add_cancel no_borrow, Nat.mod_eq_of_lt ha]
  case isFalse => rw [Nat.sub_add_cancel (hr.le.trans (Nat.le_add_left m a)), Nat.add_mod_right, Nat.mod_eq_of_lt ha]

/-- MSUB (R182): the reduced number that differs from RS1 by RS2 modulo `m`. -/
theorem execMsub_writes {i : Instr} {s : State} {rd rs1 rs2 rs3 : VReg}
    (h : exec i s = execMsub rd rs1 rs2 rs3 s) :
    if s.big rs3 = 0 then WritesBig i s rd (s.cfg.modulus - 1) (s.bigFlags rs1 ||| 0b1101#4) s.cond
    else ∃ x, x < s.big rs3 ∧ (x + s.big rs2) % s.big rs3 = s.big rs1 % s.big rs3 ∧
      WritesBig i s rd x (s.bigFlags rs1) s.cond := by
  refine modularForm_prologue h fun m_pos value => ?_
  have a_lt := Nat.mod_lt (s.big rs1) m_pos
  have r_lt := Nat.mod_lt (s.big rs2) m_pos
  have difference_lt := modularDifference_lt a_lt r_lt
  refine ⟨_, difference_lt, ?_, writesBig_plain value (difference_lt.trans (big_lt s rs3))⟩
  rw [← Nat.add_mod_mod]
  exact modularDifference_add a_lt r_lt

/-- Settles O15: MADD and MMUL write the residue of the exact sum and product, and MSUB the reduced difference. -/
theorem modularArithmeticIsExact : Obligations.ModularArithmeticIsExact := by
  refine ⟨?madd, ?msub, ?mmul⟩
  case madd =>
    exact modularForm_of_law 0x14 fun s rd rs1 rs2 rs3 =>
      modularForm_residue_writes (big_lt s rs3) (execMadd_eq rd rs1 rs2 rs3 s)
  case msub => exact modularForm_of_law 0x15 fun _ _ _ _ _ => execMsub_writes rfl
  case mmul =>
    exact modularForm_of_law 0x16 fun s rd rs1 rs2 rs3 =>
      modularForm_residue_writes (big_lt s rs3) (execMmul_eq rd rs1 rs2 rs3 s)

/-- Settles O16: for a nonzero modulus both commands are the WRAP rule of a divisor on the reduced operands; MDIV's two
sentinels are the same one. -/
theorem modularDivisionDividesTheReducedOperands : Obligations.ModularDivisionDividesTheReducedOperands := by
  constructor
  case left =>
    refine modularForm_of_law 0x17 fun s rd rs1 rs2 rs3 => ?_
    rw [ite_or]
    refine modularForm_prologue rfl fun _ value => ?_
    rw [divFull_eq] at value
    exact writesBig_valueForm_divisor value (pred_modulus_lt s)
      ((Nat.div_le_self _ _).trans_lt (remainder_lt_modulus s rs1 _))
  case right =>
    refine modularForm_of_law 0x18 fun s rd rs1 rs2 rs3 => ?_
    refine modularForm_prologue rfl fun _ value => ?_
    rw [divFull_eq] at value
    exact writesBig_valueForm_divisor value (modulus_pos s) ((Nat.mod_le _ _).trans_lt (remainder_lt_modulus s rs1 _))

/-- Settles O17: MPOW writes the residue of the exact power. -/
theorem modularPowerIsTheExactPower : Obligations.ModularPowerIsTheExactPower :=
  modularForm_of_law 0x19 fun s rd rs1 rs2 rs3 =>
    modularForm_residue_writes (big_lt s rs3) (execMpow_eq rd rs1 rs2 rs3 s)

/-- GCD is the UNCHK form of the greatest common divisor, bad on a zero operand (R187). -/
theorem exec_gcd (rd rs1 rs2 : VReg) (s : State) :
    exec (.gcd rd rs1 rs2) s =
      unchkForm rd rs1 (Nat.gcd (s.big rs1) (s.big rs2)) (decide (s.big rs1 = 0 ∨ s.big rs2 = 0)) .gcdZero s := by
  rw [Bool.decide_or]; rfl

/-- Settles O18: the UNCHK rule, with `Nat.gcd` as the greatest of the common divisors. -/
theorem gcdIsTheGreatestCommonDivisor : Obligations.GcdIsTheGreatestCommonDivisor := by
  intro s rd rs1 rs2
  refine ⟨encodes_of_decodeFields 0x1A 0 false rfl, ?_⟩
  have meaning := exec_gcd rd rs1 rs2 s
  split
  case isTrue zero =>
    rw [decide_eq_true zero] at meaning
    exact faults_unchkForm meaning
  case isFalse nonzero =>
    rw [decide_eq_false nonzero] at meaning
    have a_pos : 0 < s.big rs1 := Nat.pos_of_ne_zero fun zero => nonzero (.inl zero)
    have gcd_pos := Nat.gcd_pos_of_pos_left (s.big rs2) a_pos
    have gcd_lt := (Nat.gcd_le_left (s.big rs2) a_pos).trans_lt (big_lt s rs1)
    exact ⟨_, Nat.gcd_dvd_left _ _, Nat.gcd_dvd_right _ _,
      fun _ left right => Nat.le_of_dvd gcd_pos (Nat.dvd_gcd left right), writesBig_unchkForm meaning gcd_lt⟩

/-- Below `2m` one conditional subtraction is the reduction modulo `m`; R188 keeps every intermediate value there. -/
theorem conditionalSub_eq_mod {m x : Nat} (h : x < 2 * m) : (if x < m then x else x - m) = x % m := by
  split
  case isTrue reduced => exact (Nat.mod_eq_of_lt reduced).symm
  case isFalse unreduced => rw [Nat.mod_eq_sub_mod (Nat.not_lt.mp unreduced), Nat.mod_eq_of_lt (by omega)]

/-- One iteration (R188) adds the running value times the lowest bit of `r` and doubles the running value, both modulo
`m`. -/
theorem modularDoubleAndAdd_succ {m acc run : Nat} (t r : Nat) (hacc : acc < m) (hrun : run < m) :
    modularDoubleAndAdd m (t + 1) acc run r =
      modularDoubleAndAdd m t ((acc + run * (r % 2)) % m) (2 * run % m) (r / 2) := by
  rw [modularDoubleAndAdd, conditionalSub_eq_mod (x := acc + run) (by omega),
    conditionalSub_eq_mod (x := 2 * run) (by omega)]
  congr 1
  rcases Nat.mod_two_eq_zero_or_one r with even | odd
  case inl => rw [even, if_neg Nat.zero_ne_one, Nat.mul_zero, Nat.add_zero, Nat.mod_eq_of_lt hacc]
  case inr => rw [odd, if_pos rfl, Nat.mul_one]

/-- The loop's invariant (R188): the accumulator plus the running value times the bits of `r` still to come is kept
modulo `m`, while accumulator and running value stay below `m`. -/
theorem modularDoubleAndAdd_eq {m t acc run r : Nat} (hacc : acc < m) (hrun : run < m) (hr : r < 2 ^ t) :
    modularDoubleAndAdd m t acc run r = (acc + run * r) % m := by
  induction t generalizing acc run r with
  | zero =>
    obtain rfl : r = 0 := by simpa using hr
    rw [modularDoubleAndAdd, Nat.mul_zero, Nat.add_zero, Nat.mod_eq_of_lt hacc]
  | succ t ih =>
    have m_pos : 0 < m := Nat.zero_lt_of_lt hacc
    have half_lt : r / 2 < 2 ^ t := Nat.div_lt_of_lt_mul (Nat.pow_succ' ▸ hr)
    have bits : acc + run * (r % 2) + 2 * run * (r / 2) = acc + run * r := by
      conv_rhs => rw [← Nat.mod_add_div r 2]
      ring
    calc modularDoubleAndAdd m (t + 1) acc run r
      _ = modularDoubleAndAdd m t ((acc + run * (r % 2)) % m) (2 * run % m) (r / 2) :=
        modularDoubleAndAdd_succ t r hacc hrun
      _ = ((acc + run * (r % 2)) % m + 2 * run % m * (r / 2)) % m :=
        ih (Nat.mod_lt _ m_pos) (Nat.mod_lt _ m_pos) half_lt
      _ = (acc + run * (r % 2) + 2 * run * (r / 2)) % m := by
        rw [Nat.mod_add_mod, ← Nat.add_mod_mod, Nat.mod_mul_mod, Nat.add_mod_mod]
      _ = (acc + run * r) % m := by rw [bits]

/-- Settles O58: the invariant from accumulator 0 and the reduced multiplicand. -/
theorem doubleAndAddReductionComputesTheModularProduct :
    Obligations.DoubleAndAddReductionComputesTheModularProduct := by
  intro m t a r m_pos r_lt
  rw [modularDoubleAndAdd_eq m_pos (Nat.mod_lt a m_pos) r_lt, Nat.zero_add, Nat.mod_mul_mod]

end Sys2Proof.Proofs
end

section
/-! Proofs of the statements about powers and roots (45_pow_root.md): each POW meaning is one result form of the true
power, and the binary search of R208 ends at the floor root. -/

namespace Sys2Proof.Proofs

open Sys2Proof.Machine Sys2Proof.Laws Sys2Proof.Safety Sys2Proof.Claims

section

variable (rd rs1 : VReg) (r : Nat) (s : State)

/-- Square-and-multiply gives the true power modulo `M` and whether that power reaches `M` (R200). -/
theorem powOverflow_modulus_eq :
    powOverflow s.cfg.modulus (s.big rs1) r =
      (s.big rs1 ^ r % s.cfg.modulus, decide (s.cfg.modulus ≤ s.big rs1 ^ r)) :=
  powOverflow_eq (one_lt_modulus s) (s.big rs1) r

/-- POW.WRAP is the WRAP form of the true power (R202). -/
theorem powWrap_eq : powWrap rd rs1 r s =
    valueForm rd rs1 (s.big rs1 ^ r % s.cfg.modulus) (overflowFlags (decide (s.cfg.modulus ≤ s.big rs1 ^ r))) s := by
  rw [powWrap, powOverflow_modulus_eq]

/-- POW.OVF is the OVF form of the true power (R203). -/
theorem powOvf_eq : powOvf rd rs1 r s =
    ovfForm rd rs1 (s.big rs1 ^ r % s.cfg.modulus) (overflowFlags (decide (s.cfg.modulus ≤ s.big rs1 ^ r)))
      (decide (s.cfg.modulus ≤ s.big rs1 ^ r)) s := by
  rw [powOvf, powOverflow_modulus_eq]

/-- POW.CHK is the CHK form of the true power (R204). -/
theorem powChk_eq : powChk rd rs1 r s =
    chkForm rd rs1 (s.big rs1 ^ r % s.cfg.modulus) (decide (s.cfg.modulus ≤ s.big rs1 ^ r)) s := by
  rw [powChk, powOverflow_modulus_eq]

/-- POW.UNCHK is the UNCHK form of the true power (R205). -/
theorem powUnchk_eq : powUnchk rd rs1 r s =
    unchkForm rd rs1 (s.big rs1 ^ r % s.cfg.modulus) (decide (s.cfg.modulus ≤ s.big rs1 ^ r)) .uncheckedOverflow
      s := by
  rw [powUnchk, powOverflow_modulus_eq]

/-- POW.SAT writes the clamped power: below `M` the residue is the power itself (R206). -/
theorem powSat_eq : powSat rd rs1 r s =
    valueForm rd rs1 (if s.cfg.modulus ≤ s.big rs1 ^ r then s.cfg.modulus - 1 else s.big rs1 ^ r) 0 s := by
  simp only [powSat, powOverflow_modulus_eq, decide_eq_true_iff]
  split
  case isTrue => rfl
  case isFalse exact_power => rw [Nat.mod_eq_of_lt (Nat.not_le.mp exact_power)]

end

/-- Settles O19: the WRAP and OVF rules of a result that may reach `M`, with the true power as the result. -/
theorem powerWrapsAndReportsOverflow : Obligations.PowerWrapsAndReportsOverflow := by
  constructor
  case left => exact bothForms_of_law 0x1C 0 powWrap fun _ h => writesBig_valueForm_mod (h.trans (powWrap_eq ..))
  case right => exact bothForms_of_law 0x1C 1 powOvf fun _ h => writesBig_ovfForm_mod (h.trans (powOvf_eq ..))

/-- Settles O20: the CHK, UNCHK and SAT rules of a result that may reach `M`, with the true power as the result. -/
theorem powerCheckedUncheckedSaturating : Obligations.PowerCheckedUncheckedSaturating := by
  refine ⟨?chk, ?unchk, ?sat⟩
  case chk => exact bothForms_of_law 0x1C 2 powChk fun _ h => chkForm_mod_writes (h.trans (powChk_eq ..))
  case unchk =>
    exact bothForms_of_law 0x1C 3 powUnchk fun _ h => unchkForm_mod_faults_or_writes (h.trans (powUnchk_eq ..))
  case sat => exact bothForms_of_law 0x1C 4 powSat fun _ h => writesBig_clamped (h.trans (powSat_eq ..))

section

variable {s : State} {rs1 : VReg} {e : Nat}

/-- A root of a register's value is a value of a big register. -/
theorem iroot_lt_modulus (he : 1 ≤ e) : iroot s.cfg.modulus (s.big rs1) e < s.cfg.modulus :=
  (iroot_le (one_lt_modulus s) (big_lt s rs1) he).trans_lt (big_lt s rs1)

/-- ROOT (R207): a fault on degree 0, else the floor root with RS1's flags. -/
theorem integerRoot_faults_or_writes {i : Instr} {rd : VReg} (h : exec i s = integerRoot rd rs1 e s) :
    if e = 0 then Faults i s .rootZeroExp
    else ∃ x, x ^ e ≤ s.big rs1 ∧ s.big rs1 < (x + 1) ^ e ∧ WritesBig i s rd x (s.bigFlags rs1) s.cond := by
  rw [integerRoot] at h
  split
  case isTrue zero =>
    rw [beq_iff_eq.mpr zero] at h
    exact faults_unchkForm h
  case isFalse nonzero =>
    rw [beq_false_of_ne nonzero] at h
    have degree_pos : 1 ≤ e := Nat.one_le_iff_ne_zero.mpr nonzero
    obtain ⟨power_le, lt_next_power⟩ := iroot_spec (one_lt_modulus s) (big_lt s rs1) degree_pos
    exact ⟨_, power_le, lt_next_power, writesBig_unchkForm h (iroot_lt_modulus degree_pos)⟩

/-- SQRT (R209): the floor root of degree 2, its bounds written as products. -/
theorem execSqrt_writes {i : Instr} {rd : VReg} (h : exec i s = execSqrt rd rs1 s) :
    ∃ x, x * x ≤ s.big rs1 ∧ s.big rs1 < (x + 1) * (x + 1) ∧ WritesBig i s rd x (s.bigFlags rs1) s.cond := by
  obtain ⟨square_le, lt_next_square⟩ := iroot_spec (one_lt_modulus s) (big_lt s rs1) one_le_two
  rw [pow_two] at square_le lt_next_square
  exact ⟨_, square_le, lt_next_square, writesBig_plain h (iroot_lt_modulus one_le_two)⟩

end

/-- Settles O21: the ROOT rule in both operand forms, and the SQRT rule. -/
theorem rootIsTheFloorRoot : Obligations.RootIsTheFloorRoot := by
  constructor
  case left => exact bothForms_of_law 0x1D 0 integerRoot fun _ h => integerRoot_faults_or_writes h
  case right => exact fun _ _ _ => ⟨encodes_of_decodeFields 0x1E 0 false rfl, execSqrt_writes rfl⟩

end Sys2Proof.Proofs
end

section
/-! Proofs of the statements about the primality test (46_primality.md): the loops of R221 give the verdict of the
statements, and no witness proves a prime composite. -/

namespace Sys2Proof.Proofs

open Sys2Proof.Machine Sys2Proof.Laws Sys2Proof.Safety Sys2Proof.Claims

/-! ### The verdict of the model -/

/-- The witnesses of the model are those of the statements (R220). -/
theorem machine_witness_eq (k : Nat) : Machine.witness k = Claims.witness k := by
  rw [Machine.witness, Claims.witness]
  split
  case isTrue tabled =>
    have inside : k < witnessPrefix.length := tabled
    rw [List.getD_eq_getElem _ _ inside]
    exact (List.getD_eq_getElem _ _ inside).symm
  case isFalse beyond => exact (List.getD_eq_default _ _ (Nat.not_lt.mp beyond)).symm

/-- Of two equal products of an odd number and a power of two, the first exponent is at most the second. -/
theorem two_pow_exponent_le {d d' t t' : Nat} (hd' : d' % 2 = 1) (h : d * 2 ^ t = d' * 2 ^ t') : t ≤ t' := by
  have coprime : Nat.Coprime (2 ^ t) d' := (Nat.coprime_two_left.mpr (Nat.odd_iff.mpr hd')).pow_left t
  have divides : 2 ^ t ∣ d' * 2 ^ t' := h ▸ Dvd.intro_left d rfl
  exact (Nat.pow_dvd_pow_iff_le_right one_lt_two).mp (coprime.dvd_of_dvd_mul_left divides)

/-- The `d` and `s` of R221 are unique. -/
theorem odd_mul_two_pow_unique {d d' t t' : Nat} (hd : d % 2 = 1) (hd' : d' % 2 = 1)
    (h : d * 2 ^ t = d' * 2 ^ t') : d = d' ∧ t = t' := by
  obtain rfl : t = t' := Nat.le_antisymm (two_pow_exponent_le hd' h) (two_pow_exponent_le hd h.symm)
  exact ⟨Nat.eq_of_mul_eq_mul_right (Nat.two_pow_pos t) h, rfl⟩

/-- One round of the model is one round of the statements (R221). -/
theorem machine_witnessPasses_iff {n d t : Nat} (hd : d % 2 = 1) (ht : 0 < t) (hn : n - 1 = d * 2 ^ t) (k : Nat) :
    witnessPasses n d t k = true ↔ WitnessPasses n (Claims.witness k) := by
  rw [witnessPasses_iff ht, machine_witness_eq, WitnessPasses]
  constructor
  case mp =>
    rintro (divides | passes)
    · exact .inl divides
    · exact .inr ⟨d, t, hd, hn, passes⟩
  case mpr =>
    rintro (divides | ⟨d', t', hd', hn', passes⟩)
    · exact .inl divides
    · obtain ⟨rfl, rfl⟩ := odd_mul_two_pow_unique hd' hd (hn'.symm.trans hn)
      exact .inr passes

/-- Stripping zero bits writes `n - 1` for an odd `n` as R221 asks. -/
theorem stripTwos_pred {n : Nat} (odd : n % 2 = 1) (hn : 1 < n) :
    (stripTwos (bitLen n) (n - 1) 0).1 % 2 = 1 ∧ 0 < (stripTwos (bitLen n) (n - 1) 0).2 ∧
      n - 1 = (stripTwos (bitLen n) (n - 1) 0).1 * 2 ^ (stripTwos (bitLen n) (n - 1) 0).2 := by
  have value := stripTwos_value (bitLen n) (n - 1) 0
  have quotient_odd : (stripTwos (bitLen n) (n - 1) 0).1 % 2 = 1 :=
    stripTwos_odd 0 (Nat.sub_ne_zero_of_lt hn) ((Nat.sub_le n 1).trans_lt (lt_two_pow_bitLen n))
  rw [pow_zero, mul_one] at value
  refine ⟨quotient_odd, Nat.pos_of_ne_zero fun no_twos => ?_, value.symm⟩
  rw [no_twos, pow_zero, mul_one] at value
  omega

/-- An odd number from 5 on is reported prime iff it passes every round (R221). -/
theorem isPrime_iff_of_odd {n : Nat} (hn : 5 ≤ n) (odd : n % 2 = 1) (reps : Nat) :
    isPrime n reps = true ↔ ∀ k, k < reps → WitnessPasses n (Claims.witness k) := by
  obtain ⟨quotient_odd, twos, value⟩ := stripTwos_pred odd (by omega)
  have verdict_eq : isPrime n reps =
      witnessesPass n (stripTwos (bitLen n) (n - 1) 0).1 (stripTwos (bitLen n) (n - 1) 0).2 reps 0 := by
    simp [isPrime, odd, show n ≠ 0 ∧ n ≠ 1 ∧ n ≠ 2 ∧ n ≠ 3 by omega]
  simp only [verdict_eq, witnessesPass_iff, zero_add, machine_witnessPasses_iff quotient_odd twos value]

/-- The verdict of the model is the verdict of the statements: 2 and 3 are prime, 0, 1 and the other even numbers are
not, and the rest is decided by the rounds (R221). -/
theorem isPrime_iff_reportedPrime (n reps : Nat) : isPrime n reps = true ↔ ReportedPrime n reps := by
  rw [ReportedPrime]
  by_cases rounds : 5 ≤ n ∧ n % 2 = 1
  case pos =>
    obtain ⟨five_le, odd⟩ := rounds
    rw [or_iff_right (by omega), or_iff_right (by omega), and_iff_right five_le, and_iff_right odd]
    exact isPrime_iff_of_odd five_le odd reps
  case neg =>
    rcases Nat.lt_or_ge n 4 with small | four_le
    case inl => interval_cases n <;> simp [isPrime]
    case inr =>
      have even : n % 2 = 0 := by omega
      simp [isPrime, even, show n ≠ 2 ∧ n ≠ 3 by omega]

/-- ISPRIME (R222): COND.B gets the model's verdict. -/
theorem isprime_writesCond (s : State) (rs1 : VReg) (rs2 : SReg) :
    WritesCond (.isprime rs1 rs2) s { s.cond with b := isPrime (s.big rs1) (s.scalar rs2) } :=
  writesCond_setB rfl

/-- Settles O22: the model's verdict goes to COND.B, and its loops are the rounds of R221. -/
theorem primalityVerdictIsMillerRabin : Obligations.PrimalityVerdictIsMillerRabin :=
  fun s rs1 rs2 => ⟨encodes_of_decodeFields 0x1F 0 false rfl, _, isprime_writesCond s rs1 rs2,
    isPrime_iff_reportedPrime (s.big rs1) (s.scalar rs2)⟩

/-! ### No witness proves a prime composite -/

/-- Where only 1 and -1 square to 1, repeated squaring reaches 1 from 1 itself or through -1. -/
theorem eq_one_or_squaring_eq_neg_one {R : Type*} [Ring R] [NoZeroDivisors R] {x : R} {t : Nat}
    (h : x ^ 2 ^ t = 1) : x = 1 ∨ ∃ j, j < t ∧ x ^ 2 ^ j = -1 := by
  induction t with
  | zero => exact .inl (by simpa using h)
  | succ t ih =>
    rw [pow_succ, pow_mul, sq_eq_one_iff] at h
    rcases h with one | neg_one
    · exact (ih one).imp_right fun ⟨j, hj, hx⟩ => ⟨j, Nat.lt_succ_of_lt hj, hx⟩
    · exact .inr ⟨t, Nat.lt_succ_self t, neg_one⟩

/-- A number is that is 1 in the field of order `p` has the residue 1. -/
theorem mod_eq_one_of_cast {p a : Nat} (hp : 1 < p) (h : (a : ZMod p) = 1) : a % p = 1 := by
  rw [← Nat.cast_one, ZMod.natCast_eq_natCast_iff'] at h
  rwa [Nat.mod_eq_of_lt hp] at h

/-- A number that is -1 in the field of order `p` has the residue `p - 1`. -/
theorem mod_eq_pred_of_cast {p a : Nat} (hp : 1 < p) (h : (a : ZMod p) = -1) : a % p = p - 1 := by
  have pred_cast : ((p - 1 : Nat) : ZMod p) = -1 := by simp [Nat.cast_sub hp.le]
  rw [← pred_cast, ZMod.natCast_eq_natCast_iff'] at h
  rwa [Nat.mod_eq_of_lt (Nat.sub_lt (by omega) one_pos)] at h

/-- No witness proves a prime composite: by Fermat its power `p - 1` is 1, and in a field that 1 comes from 1 or -1. -/
theorem witnessPasses_of_prime {p : Nat} (hp : p.Prime) (w : Nat) : WitnessPasses p w := by
  have : Fact p.Prime := ⟨hp⟩
  by_cases divides : w % p = 0
  case pos => exact .inl divides
  case neg =>
    obtain ⟨t, d, odd, hpred⟩ := Nat.exists_eq_two_pow_mul_odd (Nat.sub_ne_zero_of_lt hp.one_lt)
    have nonzero : (w : ZMod p) ≠ 0 := fun h =>
      divides (Nat.mod_eq_zero_of_dvd ((ZMod.natCast_eq_zero_iff w p).mp h))
    have fermat : ((w : ZMod p) ^ d) ^ 2 ^ t = 1 := by
      rw [← pow_mul, mul_comm, ← hpred, ZMod.pow_card_sub_one_eq_one nonzero]
    refine .inr ⟨d, t, Nat.odd_iff.mp odd, hpred.trans (mul_comm _ _), ?_⟩
    refine (eq_one_or_squaring_eq_neg_one fermat).imp (fun one => ?_) (fun ⟨j, hj, neg_one⟩ => ⟨j, hj, ?_⟩)
    · exact mod_eq_one_of_cast hp.one_lt (by rw [Nat.cast_pow, one])
    · exact mod_eq_pred_of_cast hp.one_lt (by rw [Nat.cast_pow, pow_mul, neg_one])

/-- A prime is 2, 3 or an odd number from 5 on, and in the last case it passes every round. -/
theorem reportedPrime_of_prime {p : Nat} (hp : p.Prime) (reps : Nat) : ReportedPrime p reps := by
  by_cases listed : p = 2 ∨ p = 3
  case pos => exact listed.imp_right .inl
  case neg =>
    obtain ⟨ne_two, ne_three⟩ := not_or.mp listed
    have odd : p % 2 = 1 := hp.eq_two_or_odd.resolve_left ne_two
    have two_le := hp.two_le
    exact .inr (.inr ⟨by omega, odd, fun k _ => witnessPasses_of_prime hp (Claims.witness k)⟩)

/-- Settles O23: the verdict written is R221's, which is true of every prime. -/
theorem everyPrimeIsReportedPrime : Obligations.EveryPrimeIsReportedPrime := by
  intro s rs1 rs2 prime
  have verdict : isPrime (s.big rs1) (s.scalar rs2) = true :=
    (isPrime_iff_reportedPrime _ _).mpr (reportedPrime_of_prime prime (s.scalar rs2))
  rw [← verdict]
  exact isprime_writesCond s rs1 rs2

end Sys2Proof.Proofs
end

section
/-! Proofs of the statements about the logic unit, the shifter and the byte-order unit (47_bitbyte.md): every command is
one value form, so what remains is the bits or the bytes of its value. -/

namespace Sys2Proof.Proofs

open Sys2Proof.Machine Sys2Proof.Laws Sys2Proof.Safety Sys2Proof.Claims

/-- A value form that adds no flag writes the bits of its value with RS1's flags (R240). -/
theorem writesBits_plain {i : Instr} {s : State} {rd rs1 : VReg} {x : Nat} {g : Nat → Bool}
    (h : exec i s = valueForm rd rs1 x 0 s) (hx : x < s.cfg.modulus)
    (bits : ∀ j, j < s.cfg.totalBits → x.testBit j = g j) : WritesBits i s rd g (s.bigFlags rs1) :=
  ⟨x, hx, bits, writesBig_plain h hx⟩

theorem complement_lt_modulus (s : State) (rs1 : VReg) : s.cfg.modulus - 1 - s.big rs1 < s.cfg.modulus :=
  (Nat.sub_le _ _).trans_lt (pred_modulus_lt s)

/-- `M - 1 - a` is the bitwise complement (R244). -/
theorem testBit_complement {t a j : Nat} (ha : a < 2 ^ t) (hj : j < t) :
    (2 ^ t - 1 - a).testBit j = !a.testBit j := by
  rw [Nat.sub_sub, Nat.add_comm 1 a, Nat.testBit_two_pow_sub_succ ha, decide_eq_true hj, Bool.true_and]

/-- Settles O24: two values below `M` combine bit by bit to a value below `M`, and NOT is the complement in `T` bits. -/
theorem logicWorksBitByBit : Obligations.LogicWorksBitByBit := by
  intro s rd rs1 rs2
  refine ⟨⟨encodes_of_decodeFields 0x20 0 false rfl, ?and⟩, ⟨encodes_of_decodeFields 0x21 0 false rfl, ?or⟩,
    ⟨encodes_of_decodeFields 0x22 0 false rfl, ?xor⟩, ⟨encodes_of_decodeFields 0x23 0 false rfl, ?not⟩⟩
  case and => exact writesBits_plain rfl (Nat.and_lt_two_pow _ (big_lt s rs2)) fun j _ => Nat.testBit_and _ _ j
  case or =>
    exact writesBits_plain rfl (Nat.or_lt_two_pow (big_lt s rs1) (big_lt s rs2)) fun j _ => Nat.testBit_or _ _ j
  case xor =>
    exact writesBits_plain rfl (Nat.xor_lt_two_pow (big_lt s rs1) (big_lt s rs2)) fun j _ => Nat.testBit_xor _ _ j
  case not => exact writesBits_plain rfl (complement_lt_modulus s rs1) fun _ hj => testBit_complement (big_lt s rs1) hj

/-! ### Shifts and rotates -/

/-- Flags that gain UNDERFLOW unless a remainder is zero, as the statements write them (R22, R251). -/
theorem or_underflowFlags (f : FlagField) (x : Nat) :
    f ||| underflowFlags (decide (x ≠ 0)) = if x = 0 then f else f ||| 0b0010#4 := by
  by_cases h : x = 0
  case pos => simp [h, underflowFlags, flagsWhen]
  case neg => simp [h, underflowFlags, flagsWhen, flagU]

/-- SHL is the WRAP rule of `a * 2^n`, for amounts of `T` and above too (R250). -/
theorem exec_shl (rd rs1 : VReg) (rs2 : SReg) (s : State) :
    exec (.shl rd rs1 rs2) s =
      valueForm rd rs1 (s.big rs1 * 2 ^ s.scalar rs2 % s.cfg.modulus)
        (overflowFlags (decide (s.cfg.modulus ≤ s.big rs1 * 2 ^ s.scalar rs2))) s := by
  change execShl rd rs1 rs2 s = _
  rw [execShl, shiftLeft_eq]
  rfl

/-- SHR is the value form of `⌊a / 2^n⌋` with UNDERFLOW on a nonzero remainder (R251). -/
theorem exec_shr (rd rs1 : VReg) (rs2 : SReg) (s : State) :
    exec (.shr rd rs1 rs2) s =
      valueForm rd rs1 (s.big rs1 / 2 ^ s.scalar rs2)
        (underflowFlags (decide (s.big rs1 % 2 ^ s.scalar rs2 ≠ 0))) s := by
  change execShr rd rs1 rs2 s = _
  rw [execShr, shiftRight_eq _ (big_lt s rs1)]
  rfl

/-- Settles O25: SHL by the WRAP rule, SHR by the quotient and the flag of its remainder. -/
theorem shiftsReportLostBits : Obligations.ShiftsReportLostBits := by
  intro s rd rs1 rs2
  refine ⟨⟨encodes_of_decodeFields 0x24 0 false rfl, ?shl⟩, ⟨encodes_of_decodeFields 0x25 0 false rfl, ?shr⟩⟩
  case shl => exact writesBig_valueForm_mod (exec_shl rd rs1 rs2 s)
  case shr =>
    rw [← or_underflowFlags]
    exact writesBig_valueForm (exec_shr rd rs1 rs2 s) (quotient_lt_modulus s rs1 _)

/-- Settles O26: the rotates of the model move every bit. -/
theorem rotatesMoveEveryBit : Obligations.RotatesMoveEveryBit := by
  intro s rd rs1 rs2
  have ha := big_lt s rs1
  refine ⟨⟨encodes_of_decodeFields 0x26 0 false rfl, ?rotl⟩, ⟨encodes_of_decodeFields 0x27 0 false rfl, ?rotr⟩⟩
  case rotl => exact writesBits_plain rfl (rotateLeft_lt _ ha) fun _ hj => testBit_rotateLeft ha hj
  case rotr => exact writesBits_plain rfl (rotateRight_lt _ ha) fun _ hj => testBit_rotateRight ha hj

/-! ### Bit reversal and byte order -/

/-- A big register is a whole number of bytes, so its values are the numbers of `T / 8` bytes (R261). -/
theorem modulus_eq_bytes (c : Config) : c.modulus = 256 ^ (c.totalBits / 8) := by
  have whole_bytes : 8 ∣ c.totalBits :=
    Dvd.dvd.mul_right (by cases c.width <;> decide : 8 ∣ c.width.bits) c.words
  rw [Config.modulus, show 256 = 2 ^ 8 from rfl, ← pow_mul, Nat.mul_div_cancel' whole_bytes]

theorem swapped_lt_modulus (s : State) (rs1 : VReg) : swapped s rs1 < s.cfg.modulus := by
  rw [modulus_eq_bytes]
  exact swapBytes_lt _ _

/-- A value form of the swapped value writes the bytes in reverse order, with RS1's flags (R261). -/
theorem writesSwapped_plain {i : Instr} {s : State} {rd rs1 : VReg}
    (h : exec i s = valueForm rd rs1 (swapped s rs1) 0 s) :
    WritesSwapped i s rd (s.big rs1) (s.bigFlags rs1) :=
  ⟨swapped s rs1, swapped_lt_modulus s rs1, fun _ hj => byte_swapBytes hj,
    writesBig_plain h (swapped_lt_modulus s rs1)⟩

/-- Settles O27: the reversals of the model mirror the bits and the bytes. -/
theorem reversalsMirrorBitsAndBytes : Obligations.ReversalsMirrorBitsAndBytes := by
  intro s rd rs1
  refine ⟨⟨encodes_of_decodeFields 0x28 0 false rfl, ?revbits⟩, ⟨encodes_of_decodeFields 0x29 0 false rfl, ?bswap⟩⟩
  case revbits => exact writesBits_plain rfl (reverseBits_lt _ _) fun _ hj => testBit_reverseBits hj
  case bswap => exact writesSwapped_plain rfl

/-- A command whose value depends on the host's byte order is the value form of the order's own branch. -/
theorem valueForm_of_hostOrder {i : Instr} {s : State} {rd rs1 : VReg} {big little : Nat} {P Q : Prop}
    (h : exec i s = valueForm rd rs1 (if s.cfg.hostBigEndian then big else little) 0 s)
    (big_endian : exec i s = valueForm rd rs1 big 0 s → P)
    (little_endian : exec i s = valueForm rd rs1 little 0 s → Q) :
    if s.cfg.hostBigEndian then P else Q := by
  split
  case isTrue host => exact big_endian (by rw [h, if_pos host])
  case isFalse host => exact little_endian (by rw [h, if_neg host])

/-- Settles O28: in the matching byte order the copy rule, in the other one the byte-swap rule. -/
theorem byteOrderFollowsTheHost : Obligations.ByteOrderFollowsTheHost := by
  intro s rd rs1
  refine ⟨⟨encodes_of_decodeFields 0x2A 0 false rfl, ?tobe⟩, ⟨encodes_of_decodeFields 0x2B 0 false rfl, ?tole⟩⟩
  case tobe => exact valueForm_of_hostOrder rfl (writesBig_plain · (big_lt s rs1)) writesSwapped_plain
  case tole => exact valueForm_of_hostOrder rfl writesSwapped_plain (writesBig_plain · (big_lt s rs1))

/-! ### The word shifter of R254 -/

/-- Bit `j` of word `i` is bit `b*i + j` of the value (R7). -/
theorem testBit_wordAt (b a i j : Nat) : (wordAt b a i).testBit j = (decide (j < b) && a.testBit (b * i + j)) := by
  rw [wordAt, Nat.testBit_mod_two_pow, Nat.testBit_div_two_pow, Nat.add_comm]

/-- The bits of word `i` lie below every word above it (R7). -/
theorem wordBit_lt {b i j chunk : Nat} (hj : j < b) (h : i < chunk) : b * i + j < b * chunk :=
  calc b * i + j
    _ < b * (i + 1) := by rw [Nat.mul_succ]; omega
    _ ≤ b * chunk := Nat.mul_le_mul_left b h

section

variable {b j piece : Nat} (a chunk i : Nat)

/-- The word `chunk` below gives the bits from `piece` up (R254). -/
theorem testBit_movedWord (hj : j < b) :
    (if i < chunk then 0 else wordAt b a (i - chunk) * 2 ^ piece % 2 ^ b).testBit j =
      (decide (piece ≤ j) && (a * 2 ^ (b * chunk + piece)).testBit (b * i + j)) := by
  split
  case isTrue below =>
    have short : ¬ b * chunk + piece ≤ b * i + j := by have := wordBit_lt hj below; omega
    simp [Nat.testBit_mul_two_pow, short]
  case isFalse reached =>
    obtain ⟨k, rfl⟩ := Nat.exists_eq_add_of_le (Nat.not_lt.mp reached)
    simp only [Nat.add_sub_cancel_left, Nat.testBit_mod_two_pow, Nat.testBit_mul_two_pow, testBit_wordAt, Nat.mul_add]
    by_cases moved : piece ≤ j
    case pos =>
      have place : b * chunk + b * k + j - (b * chunk + piece) = b * k + (j - piece) := by omega
      have long : b * chunk + piece ≤ b * chunk + b * k + j := by omega
      simp [hj, moved, place, long, (Nat.sub_le j piece).trans_lt hj]
    case neg => simp [moved]

/-- The word under that gives the bits below `piece` (R254). -/
theorem testBit_spill (hp : piece < b) :
    (if i < chunk + 1 || piece == 0 then 0 else wordAt b a (i - chunk - 1) / 2 ^ (b - piece)).testBit j =
      (decide (j < piece) && (a * 2 ^ (b * chunk + piece)).testBit (b * i + j)) := by
  split
  case isTrue no_spill =>
    have short : ¬ (j < piece ∧ b * chunk + piece ≤ b * i + j) := by
      simp only [Bool.or_eq_true, decide_eq_true_eq, beq_iff_eq] at no_spill
      rintro ⟨spilled, reached⟩
      have : b * i ≤ b * chunk := Nat.mul_le_mul_left b (by omega)
      omega
    rw [Nat.zero_testBit, Nat.testBit_mul_two_pow, ← Bool.and_assoc, ← Bool.decide_and, decide_eq_false short,
      Bool.false_and]
  case isFalse spill =>
    simp only [Bool.or_eq_true, decide_eq_true_eq, beq_iff_eq] at spill
    obtain ⟨k, rfl⟩ : ∃ k, i = chunk + k + 1 := ⟨i - chunk - 1, by omega⟩
    have word_under : chunk + k + 1 - chunk - 1 = k := by omega
    have start : b * (chunk + k + 1) = b * chunk + b * k + b := by ring
    rw [word_under, start, Nat.testBit_div_two_pow, testBit_wordAt, Nat.testBit_mul_two_pow]
    by_cases spilled : j < piece
    case pos =>
      have place : b * chunk + b * k + b + j - (b * chunk + piece) = b * k + (j + (b - piece)) := by omega
      have long : b * chunk + piece ≤ b * chunk + b * k + b + j := by omega
      have within : j + (b - piece) < b := by omega
      simp [spilled, place, long, within]
    case neg =>
      have outside : ¬ j + (b - piece) < b := by omega
      simp [spilled, outside]

end

/-- The shifter answers a word of `b` bits (R254). -/
theorem shiftedWord_lt (b a n i : Nat) : shiftedWord b a n i < 2 ^ b := by
  apply Nat.or_lt_two_pow
  · split
    · exact Nat.two_pow_pos b
    · exact Nat.mod_lt _ (Nat.two_pow_pos b)
  · split
    · exact Nat.two_pow_pos b
    · exact (Nat.div_le_self _ _).trans_lt (Nat.mod_lt _ (Nat.two_pow_pos b))

/-- Bit `j` of the shifter's word `i` is the bit of the operand `n` places below it: from the moved word if `j` is at
least `piece`, else from the spill (R254). -/
theorem testBit_shiftedWord {b j : Nat} (a n i : Nat) (hj : j < b) :
    (shiftedWord b a n i).testBit j = (a * 2 ^ n).testBit (b * i + j) := by
  have amount : b * (n / b) + n % b = n := Nat.div_add_mod n b
  have piece_lt : n % b < b := Nat.mod_lt n (by omega)
  rw [shiftedWord, Nat.testBit_or]
  generalize n / b = chunk at amount ⊢
  generalize n % b = piece at amount piece_lt ⊢
  subst amount
  rw [testBit_movedWord a chunk i hj, testBit_spill a chunk i piece_lt, ← Bool.and_or_distrib_right]
  rcases Nat.lt_or_ge j piece with spilled | moved
  case inl => simp [spilled]
  case inr => simp [moved]

/-- Settles O59: both sides are words of `b` bits, and bit `j` of word `i` is on both the bit of the operand `n` places
below it. -/
theorem wordShifterComputesTheLeftShift : Obligations.WordShifterComputesTheLeftShift := by
  intro c a n i _ _ hi
  apply Nat.eq_of_testBit_eq
  intro j
  rw [shiftLeft_eq, testBit_wordAt, Nat.testBit_mod_two_pow]
  rcases Nat.lt_or_ge j c.wordBits with within | above
  case inl =>
    have in_register : c.wordBits * i + j < c.totalBits := wordBit_lt within hi
    simp only [testBit_shiftedWord a n i within, within, in_register, decide_true, Bool.true_and]
  case inr =>
    have outside := Nat.testBit_lt_two_pow ((shiftedWord_lt _ a n i).trans_le (Nat.pow_le_pow_right Nat.two_pos above))
    rw [outside, decide_eq_false (Nat.not_lt.mpr above), Bool.false_and]

end Sys2Proof.Proofs
end

section
/-! Proofs of the statements about the count commands (48_count.md): every command is the scalar form of a count of the
bits or the words of RS1, which fits a scalar register. -/

namespace Sys2Proof.Proofs

open Sys2Proof.Machine Sys2Proof.Laws Sys2Proof.Safety Sys2Proof.Claims

/-- A scalar form of a number of bits of a big register writes that number (R270). -/
theorem writesScalar_bitCount {i : Instr} {s : State} {rd : SReg} {x : Nat} (h : exec i s = scalarForm rd x s)
    (hx : x ≤ s.cfg.totalBits) : WritesScalar i s rd x :=
  writesScalar_scalarForm h (count_lt_scalar s hx)

/-- A big register has at least as many bits as words (R5). -/
theorem words_le_totalBits (c : Config) : c.words ≤ c.totalBits :=
  Nat.le_mul_of_pos_left c.words (by cases c.width <;> decide)

/-- A scalar form of a number of words of a big register writes that number (R270). -/
theorem writesScalar_wordCount {i : Instr} {s : State} {rd : SReg} {x : Nat} (h : exec i s = scalarForm rd x s)
    (hx : x ≤ s.cfg.words) : WritesScalar i s rd x :=
  writesScalar_bitCount h (hx.trans (words_le_totalBits s.cfg))

/-- The bit length of R10 is the library's: the least `n` with `x < 2^n`. -/
theorem bitLen_eq_size (x : Nat) : bitLen x = Nat.size x :=
  le_antisymm (bitLen_le_of_lt (Nat.lt_size_self x)) (Nat.size_le.mpr (lt_two_pow_bitLen x))

/-- Settles O29: the loop of POPCNT is the sum of the bits, CLZ's bit length is the library's, and the loop of CTZ stops
at the lowest 1-bit. -/
theorem bitCountsCountBits : Obligations.BitCountsCountBits := by
  intro s rd rs1
  refine ⟨⟨encodes_of_decodeFields 0x2C 0 false rfl, ?popcnt⟩, ⟨encodes_of_decodeFields 0x2D 0 false rfl, ?clz⟩,
    ⟨encodes_of_decodeFields 0x2E 0 false rfl, ?ctz⟩⟩
  case popcnt =>
    rw [← popCount_eq]
    exact writesScalar_bitCount rfl (popCount_le _ _)
  case clz =>
    rw [← bitLen_eq_size]
    exact writesScalar_bitCount rfl (Nat.sub_le _ _)
  case ctz =>
    have written : WritesScalar (.ctz rd rs1) s rd (trailingZeros s.cfg.totalBits (s.big rs1)) :=
      writesScalar_bitCount rfl (trailingZeros_le _ _)
    split
    case isTrue zero => rwa [zero, trailingZeros_zero] at written
    case isFalse nonzero =>
      obtain ⟨divides, largest⟩ := trailingZeros_spec (big_lt s rs1) nonzero
      exact ⟨_, divides, largest, written⟩

/-! ### Zero words -/

/-- A value of `n` words whose words are all zero is zero: without its top word it is a value of `n - 1` words (R7). -/
theorem eq_zero_of_words_eq_zero {b n a : Nat} (ha : a < 2 ^ (b * n)) (zero : ∀ i, i < n → wordAt b a i = 0) :
    a = 0 := by
  induction n with
  | zero => simpa using ha
  | succ n ih =>
    have top_lt : a / 2 ^ (b * n) < 2 ^ b := Nat.div_lt_of_lt_mul (by rwa [← pow_add, ← Nat.mul_succ])
    have top_zero : a / 2 ^ (b * n) = 0 := (Nat.mod_eq_of_lt top_lt).symm.trans (zero n n.lt_succ_self)
    have shorter : a < 2 ^ (b * n) := (Nat.div_eq_zero_iff_lt (Nat.two_pow_pos _)).mp top_zero
    exact ih shorter fun i hi => zero i (Nat.lt_succ_of_lt hi)

theorem leadingZeroWords_zero (b n : Nat) : leadingZeroWords b n 0 = n := by
  induction n with
  | zero => rfl
  | succ n ih => simp [leadingZeroWords, ih]

theorem trailingZeroWords_zero (b n : Nat) : trailingZeroWords b n 0 = n := by
  induction n with
  | zero => rfl
  | succ n ih => simp [trailingZeroWords, ih]

section

variable {b n a : Nat} (ha : a < 2 ^ (b * n)) (nonzero : a ≠ 0)
include ha nonzero

/-- Not every word of a nonzero value is counted from above (R274). -/
theorem leadingZeroWords_lt : leadingZeroWords b n a < n := by
  refine lt_of_le_of_ne (leadingZeroWords_le b n a) fun all_counted => nonzero ?_
  obtain ⟨zero_above, -⟩ := leadingZeroWords_spec b n a
  exact eq_zero_of_words_eq_zero ha fun i hi => zero_above i (by omega) hi

/-- Not every word of a nonzero value is counted from below (R275). -/
theorem trailingZeroWords_lt : trailingZeroWords b n a < n := by
  refine lt_of_le_of_ne (trailingZeroWords_le b n a) fun all_counted => nonzero ?_
  obtain ⟨zero_below, -⟩ := trailingZeroWords_spec b n a
  exact eq_zero_of_words_eq_zero ha fun i hi => zero_below i (by omega)

/-- CLZW counts the words above the top nonzero word `i`, whose number is `n - 1 - i` (R274). -/
theorem exists_top_nonzero_word :
    ∃ i, i < n ∧ wordAt b a i ≠ 0 ∧ (∀ j, i < j → j < n → wordAt b a j = 0) ∧
      leadingZeroWords b n a = n - 1 - i := by
  obtain ⟨zero_above, top_nonzero⟩ := leadingZeroWords_spec b n a
  have counted := leadingZeroWords_lt ha nonzero
  exact ⟨n - 1 - leadingZeroWords b n a, by omega, top_nonzero counted,
    fun j above hj => zero_above j (by omega) hj, by omega⟩

end

/-- Settles O30: of 0 all words are counted, and else the loops stop at the top and at the lowest nonzero word. -/
theorem wordCountsCountZeroWords : Obligations.WordCountsCountZeroWords := by
  intro s rd rs1
  refine ⟨⟨encodes_of_decodeFields 0x2F 0 false rfl, ?clzw⟩, ⟨encodes_of_decodeFields 0x30 0 false rfl, ?ctzw⟩⟩
  case clzw =>
    have written : WritesScalar (.clzw rd rs1) s rd (leadingZeroWords s.cfg.wordBits s.cfg.words (s.big rs1)) :=
      writesScalar_wordCount rfl (leadingZeroWords_le _ _ _)
    split
    case isTrue zero => rwa [zero, leadingZeroWords_zero] at written
    case isFalse nonzero =>
      obtain ⟨i, hi, top_nonzero, zero_above, count⟩ := exists_top_nonzero_word (big_lt s rs1) nonzero
      exact ⟨i, hi, top_nonzero, zero_above, count ▸ written⟩
  case ctzw =>
    have written : WritesScalar (.ctzw rd rs1) s rd (trailingZeroWords s.cfg.wordBits s.cfg.words (s.big rs1)) :=
      writesScalar_wordCount rfl (trailingZeroWords_le _ _ _)
    split
    case isTrue zero => rwa [zero, trailingZeroWords_zero] at written
    case isFalse nonzero =>
      have counted := trailingZeroWords_lt (big_lt s rs1) nonzero
      obtain ⟨zero_below, lowest_nonzero⟩ := trailingZeroWords_spec s.cfg.wordBits s.cfg.words (s.big rs1)
      exact ⟨_, counted, lowest_nonzero counted, zero_below, written⟩

end Sys2Proof.Proofs
end

section
/-! Proofs of the statements about the flag and COND access commands (49_flags.md). -/

namespace Sys2Proof.Proofs

open Sys2Proof.Machine Sys2Proof.Laws Sys2Proof.Safety Sys2Proof.Claims

/-- A flag field, zero-extended, is a value of a scalar register (R291). -/
theorem flags_lt_scalar (s : State) (v : VReg) : (s.bigFlags v).toNat < 2 ^ s.cfg.scalarBits :=
  calc (s.bigFlags v).toNat
    _ < 2 ^ 4 := (s.bigFlags v).isLt
    _ ≤ 2 ^ s.cfg.scalarBits := Nat.pow_le_pow_right Nat.two_pos ((by decide : 4 ≤ 64).trans (Nat.le_max_right _ _))

/-- The bits of a flag field that a mask leaves (R292). -/
theorem getLsbD_and_not_mask {f m : FlagField} {j : Nat} (hj : j < 4) :
    (f &&& ~~~m).getLsbD j = (f.getLsbD j && !m.getLsbD j) := by
  simp [hj]

/-- A masked field is nonzero iff some flag of it is masked and set (R294). -/
theorem masked_ne_zero_iff (f m : FlagField) :
    (f &&& m != 0) = true ↔ ∃ j, j < 4 ∧ f.getLsbD j = true ∧ m.getLsbD j = true := by
  rw [bne_iff_ne]
  constructor
  case mp =>
    intro nonzero
    by_contra none_set
    refine nonzero (BitVec.eq_of_getLsbD_eq fun j hj => ?_)
    have unset : ¬ (f.getLsbD j = true ∧ m.getLsbD j = true) := fun both => none_set ⟨j, hj, both⟩
    simpa using unset
  case mpr =>
    rintro ⟨j, -, flag, masked⟩ zero
    have bit : (f &&& m).getLsbD j = true := by rw [BitVec.getLsbD_and, flag, masked, Bool.and_self]
    simp [zero] at bit

/-- Settles O31: FGET is the scalar form of the flags, FCLR and FSET are flag writes, whose bits the mask gives, and FTEST
is a COND.B write. -/
theorem flagCommandsReadAndWriteFlags : Obligations.FlagCommandsReadAndWriteFlags := by
  intro s rd rs1 k mask m
  refine ⟨⟨encodes_of_decodeFields 0x34 0 false rfl, ?fget⟩, ⟨encodes_of_decodeFields 0x36 0 false rfl, ?fclr⟩,
    ⟨encodes_of_decodeFields 0x35 0 false rfl, ?fset⟩, ⟨encodes_of_decodeFields 0x37 0 false rfl, ?ftest⟩⟩
  case fget => exact writesScalar_scalarForm rfl (flags_lt_scalar s rs1)
  case fclr => exact ⟨_, fun _ hj => getLsbD_and_not_mask hj, writesBig_setFlags rfl⟩
  case fset => exact ⟨_, fun _ _ => BitVec.getLsbD_or, writesBig_setFlags rfl⟩
  case ftest => exact ⟨_, masked_ne_zero_iff _ m, writesCond_setB rfl⟩

/-! ### CONDW -/

/-- The decoder's answer for the fields of CONDW: only a mask whose two high bits are 0 is the command (R76). -/
theorem decodeFields_condw (mask : Fin 16) :
    decodeFields (.form 0x38 0 false 0 0 0 mask 0) =
      if mask.val < 4 then .ok (.condw (BitVec.ofNat 4 mask.val)) else .error .illegalForm := by
  have checked : decodeFields (.form 0x38 0 false 0 0 0 mask 0) =
      if !decide (mask.val < 4) then .error .illegalForm else .ok (.condw (BitVec.ofNat 4 mask.val)) := rfl
  rw [checked]
  by_cases low : mask.val < 4
  case pos => simp [low]
  case neg => simp [low]

/-- CONDW with the two high bits 0 writes the two low ones to COND and changes no register (R295). -/
theorem writesCond_condw {imm : Imm4} (s : State) (low : imm.toNat < 4) :
    WritesCond (.condw imm) s { b := imm.getLsbD 0, none := imm.getLsbD 1 } :=
  ⟨((s.setB (imm.getLsbD 0)).setNone (imm.getLsbD 1)).completed, if_pos low,
    completed_completed rfl rfl rfl rfl rfl rfl rfl rfl, rfl, bigsKept_refl s [], scalarsKept_refl s []⟩

/-- The immediate of a four-bit field has the field's value (R75). -/
theorem toNat_imm (mask : Fin 16) : (BitVec.ofNat 4 mask.val).toNat = mask.val := by
  rw [BitVec.toNat_ofNat, Nat.mod_eq_of_lt mask.isLt]

/-- The two low bits of an immediate, as R295 reads them from the field's value. -/
theorem low_bits_imm (mask : Fin 16) :
    (BitVec.ofNat 4 mask.val).getLsbD 0 = decide (mask.val % 2 = 1) ∧
      (BitVec.ofNat 4 mask.val).getLsbD 1 = decide (mask.val / 2 % 2 = 1) := by
  simp only [← BitVec.testBit_toNat, toNat_imm]
  exact ⟨Nat.testBit_zero _, by rw [Nat.testBit_succ, Nat.testBit_zero]⟩

/-- Settles O32: the decoder's check on the mask is the statement's, and the meaning writes the immediate's low bits. -/
theorem condwWritesBothCondBits : Obligations.CondwWritesBothCondBits := by
  intro s mask m
  split
  case isTrue low =>
    obtain ⟨bit_b, bit_none⟩ := low_bits_imm mask
    refine ⟨encodes_of_decodeFields 0x38 0 false ((decodeFields_condw mask).trans (if_pos low)), ?_⟩
    rw [← bit_b, ← bit_none]
    exact writesCond_condw s ((toNat_imm mask).trans_lt low)
  case isFalse high =>
    exact decode_fieldWord_of_decodeFields 0x38 0 false ((decodeFields_condw mask).trans (if_neg high))

end Sys2Proof.Proofs
end

section
/-! Proofs of the statements about the encoding (30_encoding.md): the decoder on the fields of a command, and on any
fields, where all it knows of the row it finds is said once for the whole opcode map. -/

namespace Sys2Proof.Proofs

open Sys2Proof.Machine Sys2Proof.Laws Sys2Proof.Claims

/-! ### The fields of a command -/

/-- An immediate survives its passage through the third source field (R75). -/
theorem ofNat_toFin_val (imm : Imm4) : BitVec.ofNat 4 imm.toFin.val = imm := BitVec.ofNat_toNat 4 imm

/-- The decoder's test of equal destinations against the test of `wellFormed` for different ones (R77). -/
theorem ite_beq_eq_ite_bne {α : Type} (rd rd2 : VReg) (x y : α) :
    (if rd == rd2 then x else y) = if rd != rd2 then y else x := by
  rw [bne]
  cases rd == rd2 <;> rfl

/-- The decoder on the fields of a command: one with a legal choice of operands is given back, with every operand, and
any other is ILLEGAL_FORM (R76, R77, R80). -/
theorem decodeFields_fields (i : Instr) :
    decodeFields i.fields = if i.wellFormed then .ok i else .error .illegalForm := by
  cases i
  case mulWide rd rd2 _ _ | mulWideU rd rd2 _ _ | mulCarry rd rd2 _ _ _ | mulCarryU rd rd2 _ _ _
      | divfull rd rd2 _ _ | divfullU rd rd2 _ _ => exact ite_beq_eq_ite_bne rd rd2 _ _
  case fset rd imm => exact congrArg (fun m => Except.ok (Instr.fset rd m)) (ofNat_toFin_val imm)
  case fclr rd imm => exact congrArg (fun m => Except.ok (Instr.fclr rd m)) (ofNat_toFin_val imm)
  case ftest rs1 imm => exact congrArg (fun m => Except.ok (Instr.ftest rs1 m)) (ofNat_toFin_val imm)
  case condw imm =>
    refine (decodeFields_condw imm.toFin).trans ?_
    simp [Instr.wellFormed]
  all_goals rfl

/-- Settles O33: a word made of a command's fields has those fields, and the decoder gives a well-formed one back. -/
theorem decodeOfEncodeIsTheCommand : Obligations.DecodeOfEncodeIsTheCommand := by
  intro i wellFormed
  rw [decode_encode, decodeFields_fields, if_pos wellFormed]

/-- Settles O37: each word is run through the decoder. -/
theorem sampleWordsDecode : Obligations.SampleWordsDecode := by
  unfold Obligations.SampleWordsDecode
  decide

/-! ### The row of a word -/

/-- The row of the opcode map with the OP, VAR and U of the fields (R80). -/
def rowOf (f : Fields) : Option Row :=
  opcodeMap.find? fun r => r.op == f.op && r.var == f.var && r.u == f.u

/-- The checks of R80 that follow the opcode, VAR and U: reserved bits, unused fields, and RD against RD2. -/
def accepts (r : Row) (f : Fields) : Bool :=
  !f.res21 && !f.res0 && r.fmt.unusedZero f && !(r.fmt.twoDest && f.rd == f.rd2)

/-- The opcodes with no row are the reserved ones (R78). -/
theorem no_row_iff_reserved :
    ∀ op : Fin 64, opcodeMap.all (fun r => r.op != op) = true ↔ op.val ∈ reservedOpcodes := by decide

theorem decodeFields_reserved {f : Fields} (h : f.op.val ∈ reservedOpcodes) :
    decodeFields f = .error .illegalOpcode := if_pos ((no_row_iff_reserved f.op).mpr h)

theorem decodeFields_no_row {f : Fields} (h : f.op.val ∉ reservedOpcodes) (no_row : rowOf f = none) :
    decodeFields f = .error .illegalForm := by
  rw [rowOf] at no_row
  rw [decodeFields, if_neg (mt (no_row_iff_reserved f.op).mp h), no_row]

theorem rowOf_eq_some {f : Fields} {r : Row} (h : rowOf f = some r) :
    r ∈ opcodeMap ∧ r.op = f.op ∧ r.var = f.var ∧ r.u = f.u := by
  have key := List.find?_some h
  simp only [Bool.and_eq_true, beq_iff_eq] at key
  exact ⟨List.mem_of_find?_eq_some h, key.1.1, key.1.2, key.2⟩

theorem not_reserved_of_row {f : Fields} {r : Row} (h : rowOf f = some r) : f.op.val ∉ reservedOpcodes := by
  obtain ⟨mem, op, -, -⟩ := rowOf_eq_some h
  rw [← no_row_iff_reserved, List.all_eq_true]
  intro all_differ
  simpa [op] using all_differ r mem

/-- Checks made one after the other, each with the same refusal, are one check. -/
theorem checks_in_order {α : Type} (res21 res0 unused same : Bool) (refused x : α) :
    (if res21 || res0 then refused else if !unused then refused else if same then refused else x) =
      if !res21 && !res0 && unused && !same then x else refused := by
  cases res21 <;> cases res0 <;> cases unused <;> cases same <;> rfl

theorem decodeFields_row {f : Fields} {r : Row} (h : rowOf f = some r) :
    decodeFields f = if accepts r f then .ok (r.build f) else .error .illegalForm := by
  have defined := mt (no_row_iff_reserved f.op).mp (not_reserved_of_row h)
  rw [rowOf] at h
  rw [decodeFields, if_neg defined, h]
  exact checks_in_order ..

/-- Settles O35: a word with a reserved opcode has no row, and every later refusal is ILLEGAL_FORM. -/
theorem illegalOpcodeExactlyForReservedOpcodes : Obligations.IllegalOpcodeExactlyForReservedOpcodes := by
  intro c
  change decodeFields (fieldsOf c) = _ ↔ (fieldsOf c).op.val ∈ reservedOpcodes
  by_cases reserved : (fieldsOf c).op.val ∈ reservedOpcodes
  case pos => exact iff_of_true (decodeFields_reserved reserved) reserved
  case neg =>
    refine iff_of_false ?_ reserved
    cases row : rowOf (fieldsOf c) with
    | none => simp [decodeFields_no_row reserved row]
    | some r => rw [decodeFields_row row]; split <;> simp

/-! ### One encoding for each command -/

/-- The fields a form of the format has when the fields it does not use are zero (R74, R76). -/
def formOf (t : Format) (op : Fin 64) (var : Fin 8) (u : Bool) (f : Fields) : Fields :=
  match t with
  | .z => .form op var u f.rd 0 0 0 0
  | .r1 | .cnt => .form op var u f.rd f.rs1 0 0 0
  | .r1s => .form op var u f.rd 0 f.rs2 0 0
  | .r2 | .r2s => .form op var u f.rd f.rs1 f.rs2 0 0
  | .r2d => .form op var u f.rd f.rs1 f.rs2 0 f.rd2
  | .r3d => .form op var u f.rd f.rs1 f.rs2 f.rs3 f.rd2
  | .r3 => .form op var u f.rd f.rs1 f.rs2 f.rs3 0
  | .prm => .form op var u 0 f.rs1 f.rs2 0 0
  | .fim => .form op var u f.rd 0 0 f.rs3 0
  | .fts => .form op var u 0 f.rs1 0 f.rs3 0
  | .cim => .form op var u 0 0 0 f.rs3 0

/-- Fields that pass the checks of their row are those of the format's form. -/
theorem formOf_of_accepts {r : Row} {f : Fields} (h : accepts r f = true) :
    formOf r.fmt f.op f.var f.u f = f := by
  obtain ⟨op, var, u, res21, rd, rs1, rs2, rs3, rd2, res0⟩ := f
  simp only [accepts, Bool.and_eq_true, Bool.not_eq_true'] at h
  obtain ⟨⟨⟨rfl, rfl⟩, unused⟩, -⟩ := h
  cases fmt : r.fmt <;> simp_all [Format.unusedZero, formOf, Fields.form]

/-- The command a row names has the fields of the row's form, back from its operands. -/
theorem fields_build : ∀ r ∈ opcodeMap, ∀ f, (r.build f).fields = formOf r.fmt r.op r.var r.u f := by
  have imm (f : Fields) : f.imm.toFin = f.rs3 := by simp [Fields.imm]
  simp only [opcodeMap, rowsConstruct, rowsAddSub, rowsMul, rowsDiv, rowsModular, rowsPow, rowsBits, rowsCountFlag,
    List.forall_mem_append, List.forall_mem_cons]
  simp only [Instr.fields, formOf, imm]
  simp

/-- Fields that decode are the fields of the command they decode to. -/
theorem fields_of_decodeFields {f : Fields} {i : Instr} (h : decodeFields f = .ok i) : i.fields = f := by
  by_cases reserved : f.op.val ∈ reservedOpcodes
  case pos => simp [decodeFields_reserved reserved] at h
  case neg =>
    cases row : rowOf f with
    | none => simp [decodeFields_no_row reserved row] at h
    | some r =>
      rw [decodeFields_row row] at h
      split at h
      case isTrue accepted =>
        obtain ⟨mem, op, var, u⟩ := rowOf_eq_some row
        cases h
        rw [fields_build r mem, op, var, u, formOf_of_accepts accepted]
      case isFalse => cases h

/-- Settles O34: the fields of the command are those of the word, and the decoder gives only well-formed commands back
from their fields. -/
theorem everyCommandHasOneEncoding : Obligations.EveryCommandHasOneEncoding := by
  intro c i decoded
  have fields : i.fields = fieldsOf c := fields_of_decodeFields decoded
  constructor
  case left => rw [encode, fields, word_fieldsOf]
  case right =>
    by_contra ill_formed
    have refused := decodeFields_fields i
    rw [if_neg ill_formed, fields] at refused
    cases refused.symm.trans decoded

/-! ### The form checks -/

/-- Which of RD, RS1, RS2, RS3 and RD2 a format uses (R74). -/
def usedBy : Format → List Bool
  | .z => [true, false, false, false, false]
  | .r1 | .cnt => [true, true, false, false, false]
  | .r1s => [true, false, true, false, false]
  | .r2 | .r2s => [true, true, true, false, false]
  | .r2d => [true, true, true, false, true]
  | .r3d => [true, true, true, true, true]
  | .r3 => [true, true, true, true, false]
  | .prm => [false, true, true, false, false]
  | .fim => [true, false, false, true, false]
  | .fts => [false, true, false, true, false]
  | .cim => [false, false, false, true, false]

/-- What the tables of the statements say of the key of a row is what the model says of the row (R74, R77, R303). -/
theorem row_matches_tables : ∀ r ∈ opcodeMap,
    r.var.val ∈ allowedVariants r.op.val ∧ ¬ (r.u = true ∧ wordFormAllowed r.op.val = false) ∧
    usedFields r.op.val r.var.val = usedBy r.fmt ∧ (r.op.val = 0x38 ↔ r.fmt = .cim) ∧
    (r.op.val = 0x10 ∨ (r.op.val = 0x0C ∧ 5 ≤ r.var.val) ↔ r.fmt.twoDest = true) := by decide

/-- Every VAR and U the tables allow for a defined opcode has a row (R74). -/
theorem row_of_allowed : ∀ op : Fin 64, op.val ∉ reservedOpcodes → ∀ var : Fin 8, var.val ∈ allowedVariants op.val →
      ∀ u : Bool, ¬ (u = true ∧ wordFormAllowed op.val = false) →
        (opcodeMap.find? fun r => r.op == op && r.var == var && r.u == u).isSome = true := by decide

/-- The column "fields that must be zero", with the two high bits of CONDW's immediate (R74, R76). -/
theorem unusedZero_iff (t : Format) (f : Fields) :
    t.unusedZero f = true ↔
      ¬ (∃ p ∈ (usedBy t).zip [f.rd.val, f.rs1.val, f.rs2.val, f.rs3.val, f.rd2.val], p.1 = false ∧ p.2 ≠ 0) ∧
        ¬ (t = .cim ∧ 4 ≤ f.rs3.val) := by
  cases t <;> simp [Format.unusedZero, usedBy, and_assoc]

/-- The form checks of R303 on the fields of a word. -/
theorem brokenForm_iff (c : Word) : BrokenForm c ↔
    let f := fieldsOf c
    f.var.val ∉ allowedVariants f.op.val ∨ (f.u = true ∧ wordFormAllowed f.op.val = false) ∨ f.res21 = true ∨
      f.res0 = true ∨
      (∃ p ∈ (usedFields f.op.val f.var.val).zip [f.rd.val, f.rs1.val, f.rs2.val, f.rs3.val, f.rd2.val],
        p.1 = false ∧ p.2 ≠ 0) ∨
      (f.op.val = 0x38 ∧ 4 ≤ f.rs3.val) ∨
      ((f.op.val = 0x10 ∨ (f.op.val = 0x0C ∧ 5 ≤ f.var.val)) ∧ f.rd = f.rd2) := by
  have bit (n : Nat) : bitsAt c n 1 = 1 ↔ wordBit c n = true := beq_iff_eq.symm
  simp only [BrokenForm, bit, Fin.ext_iff]
  exact Iff.rfl

/-- A word with a row is broken exactly if a later check refuses it. -/
theorem brokenForm_iff_of_row {c : Word} {r : Row} (row : rowOf (fieldsOf c) = some r) :
    BrokenForm c ↔ ¬ accepts r (fieldsOf c) = true := by
  obtain ⟨mem, op, var, u⟩ := rowOf_eq_some row
  obtain ⟨variant, word_form, used, condw, two_dest⟩ := row_matches_tables r mem
  rw [op] at variant word_form used condw two_dest
  rw [var] at variant used two_dest
  rw [u] at word_form
  rw [brokenForm_iff]
  simp only [variant, not_true, word_form, used, condw, two_dest, false_or, accepts, Bool.and_eq_true, unusedZero_iff,
    Bool.not_eq_true', Bool.and_eq_false_iff, beq_eq_false_iff_ne, ne_eq, not_and_or, not_or, not_not, or_assoc,
    Bool.not_eq_false]

/-- A word of a defined opcode without a row has a VAR or a U that is not allowed. -/
theorem brokenForm_of_no_row {c : Word} (defined : (fieldsOf c).op.val ∉ reservedOpcodes)
    (no_row : rowOf (fieldsOf c) = none) : BrokenForm c := by
  rw [brokenForm_iff]
  by_contra unbroken
  obtain ⟨variant, word_form, -⟩ := not_or.mp unbroken |>.imp_right not_or.mp
  have found := row_of_allowed _ defined _ (not_not.mp variant) _ word_form
  rw [rowOf] at no_row
  rw [no_row] at found
  cases found

/-- Settles O36: without a row a word breaks the check of VAR or U, and with one the later checks decide. -/
theorem illegalFormExactlyForBrokenForms : Obligations.IllegalFormExactlyForBrokenForms := by
  intro c
  change decodeFields (fieldsOf c) = _ ↔ (fieldsOf c).op.val ∉ reservedOpcodes ∧ _
  by_cases reserved : (fieldsOf c).op.val ∈ reservedOpcodes
  case pos => simp [decodeFields_reserved reserved, reserved]
  case neg =>
    rw [and_iff_right reserved]
    cases row : rowOf (fieldsOf c) with
    | none => exact iff_of_true (decodeFields_no_row reserved row) (brokenForm_of_no_row reserved row)
    | some r =>
      rw [decodeFields_row row, brokenForm_iff_of_row row]
      split <;> simp [*]

end Sys2Proof.Proofs
end

section
/-! Proofs of the statements about the command cycle, faults and resets (10_state.md 5 and 6, 60_exceptions.md,
70_reset_and_hazards.md): one inversion of a step, and for each kind of turn what it does to the control registers. -/

namespace Sys2Proof.Proofs

open Sys2Proof.Machine Sys2Proof.Laws Sys2Proof.Safety Sys2Proof.Claims

/-! ### What a step can be -/

/-- A command word completes or takes a fault with a cause, whether it decodes or not (R80, R306). -/
theorem execute_completes_or_faults (c : Word) (s : State) :
    (∃ t, execute c s = .next t ∧ Completed s t) ∨
      ∃ cause, cause ≠ Cause.none ∧ execute c s = .next (takeFault cause s) := by
  rw [execute]
  split
  next => exact .inr ⟨.illegalOpcode, by decide, rfl⟩
  next => exact .inr ⟨.illegalForm, by decide, rfl⟩
  next i _ =>
    obtain ⟨t, next, done, -⟩ | fault := exec_ends i s
    · exact .inl ⟨t, next, done⟩
    · exact .inr fault

/-- With nothing in flight the engine rests (R34). -/
theorem engineStep_empty {s : State} (empty : s.ifc = none) : engineStep s = .next s := by
  rw [engineStep, empty]

/-- The engine runs the word in flight (R34). -/
theorem engineStep_in_flight {s : State} {c : Word} (in_flight : s.ifc = some c) : engineStep s = execute c s := by
  rw [engineStep, in_flight]

/-- The engine's turn changes nothing, or ends the command in flight. -/
theorem engineStep_cases {s t : State} (h : engineStep s = .next t) :
    t = s ∨ s.ifc.isSome = true ∧ (Completed s t ∨ ∃ cause, cause ≠ Cause.none ∧ t = takeFault cause s) := by
  cases latch : s.ifc with
  | none =>
    cases (engineStep_empty latch).symm.trans h
    exact .inl rfl
  | some c =>
    rw [engineStep_in_flight latch] at h
    refine .inr ⟨rfl, ?_⟩
    obtain ⟨u, next, done⟩ | ⟨cause, ne_none, next⟩ := execute_completes_or_faults c s
    · cases next.symm.trans h
      exact .inl done
    · cases next.symm.trans h
      exact .inr ⟨cause, ne_none, rfl⟩

/-- A step takes its turn from the order and gives it to the engine, the host port or the reset input (R62). -/
theorem step_cases {s t : State} (h : step s = .next t) :
    ∃ rest, engineStep { s with order := rest } = .next t ∨
      (∃ op, hostStep op { s with order := rest } = .next t) ∨ t = hardReset { s with order := rest } := by
  rw [step] at h
  split at h
  next empty => exact ⟨[], .inl (by rw [← empty]; exact h)⟩
  next rest _ => exact ⟨rest, .inl h⟩
  next op rest _ => exact ⟨rest, .inr (.inl ⟨op, h⟩)⟩
  next rest _ => cases h; exact ⟨rest, .inr (.inr rfl)⟩

/-- Settles O45: no kind of turn writes the parameters. -/
theorem everyStepKeepsTheConfiguration : Obligations.EveryStepKeepsTheConfiguration := by
  intro s t next
  obtain ⟨rest, engine | ⟨op, host⟩ | rfl⟩ := step_cases next
  · obtain rfl | ⟨-, done | ⟨cause, -, rfl⟩⟩ := engineStep_cases engine
    · rfl
    · exact done.cfg
    · rfl
  · exact (hostStep_keeps host).1
  · rfl

/-! ### The invariant of the control registers -/

/-- With the control registers cleared and nothing in flight the invariant holds. -/
theorem controlInv_of_cleared {t : State}
    (status : t.status = { busy := false, fault := false, done := false, lost := false }) (cause : t.cause = .none)
    (fcmd : t.fcmd = 0) (ifc : t.ifc = none) : ControlInv t where
  busy_iff := by rw [status, ifc]; rfl
  busy_clear := by simp [status]
  fault_iff := by simp [status, cause]
  no_fcmd _ := fcmd
  fault_not_done := by simp [status]

/-- Settles O43: State.reset is cleared. -/
theorem controlInvariantAtReset : Obligations.ControlInvariantAtReset := controlInv_of_cleared rfl rfl rfl rfl

/-- The fields of the invariant are as before, but DONE may have been cleared. -/
structure KeepsCycle (s t : State) : Prop where
  ifc : t.ifc = s.ifc
  cause : t.cause = s.cause
  fcmd : t.fcmd = s.fcmd
  busy : t.status.busy = s.status.busy
  fault : t.status.fault = s.status.fault
  done : s.status.done = false → t.status.done = false

section

variable {s t : State} (inv : ControlInv s)
include inv

theorem controlInv_of_keepsCycle (kept : KeepsCycle s t) : ControlInv t where
  busy_iff := by rw [kept.busy, kept.ifc]; exact inv.busy_iff
  busy_clear busy := by
    obtain ⟨fault, done⟩ := inv.busy_clear (kept.busy ▸ busy)
    exact ⟨kept.fault.trans fault, kept.done done⟩
  fault_iff := by rw [kept.fault, kept.cause]; exact inv.fault_iff
  no_fcmd fault := kept.fcmd.trans (inv.no_fcmd (kept.fault ▸ fault))
  fault_not_done fault := kept.done (inv.fault_not_done (kept.fault ▸ fault))

/-- A command is accepted only without a recorded fault, and clears DONE (R34). -/
theorem controlInv_offer (c : Word) : ControlInv (s.offer c) := by
  rw [State.offer]
  split
  next => exact controlInv_of_keepsCycle inv ⟨rfl, rfl, rfl, rfl, rfl, id⟩
  next idle =>
    obtain ⟨-, fault⟩ : s.status.busy = false ∧ s.status.fault = false := by simpa using idle
    exact ⟨rfl, fun _ => ⟨fault, rfl⟩, inv.fault_iff, inv.no_fcmd, fun _ => rfl⟩

/-- FACK clears the whole record (R310). -/
theorem controlInv_acknowledge : ControlInv (acknowledge s) where
  busy_iff := inv.busy_iff
  busy_clear busy := ⟨rfl, (inv.busy_clear busy).2⟩
  fault_iff := by simp
  no_fcmd _ := rfl
  fault_not_done := by simp

variable (in_flight : s.ifc.isSome = true)
include in_flight

/-- While a command is in flight, no fault is recorded and DONE is 0. -/
theorem no_record_in_flight : s.status.fault = false ∧ s.status.done = false :=
  inv.busy_clear (inv.busy_iff.trans in_flight)

theorem controlInv_of_completed (done : Completed s t) : ControlInv t := by
  obtain ⟨no_fault, -⟩ := no_record_in_flight inv in_flight
  have fault : t.status.fault = false := by rw [done.status]; exact no_fault
  exact
    { busy_iff := by rw [done.status, done.ifc]; rfl
      busy_clear := by simp [done.status]
      fault_iff := by rw [fault, done.cause, ← no_fault]; exact inv.fault_iff
      no_fcmd := fun _ => done.fcmd.trans (inv.no_fcmd no_fault)
      fault_not_done := by simp [fault] }

theorem controlInv_takeFault {cause : Cause} (ne_none : cause ≠ .none) : ControlInv (takeFault cause s) where
  busy_iff := rfl
  busy_clear := by simp
  fault_iff := by simp [ne_none]
  no_fcmd := by simp
  fault_not_done _ := (no_record_in_flight inv in_flight).2

end

/-! ### What the host port does to the control registers -/

theorem keepsCycle_guardedWrite {ok : Bool} {s u : State} (kept : KeepsCycle s u) :
    KeepsCycle s (guardedWrite ok s u) := by
  rw [guardedWrite]
  split
  next => exact ⟨rfl, rfl, rfl, rfl, rfl, id⟩
  next => exact kept

theorem keepsCycle_guardedRead (ok : Bool) (w x : Nat) (s : State) : KeepsCycle s (guardedRead ok w x s) := by
  rw [guardedRead]
  split <;> exact ⟨rfl, rfl, rfl, rfl, rfl, id⟩

theorem keepsCycle_readCsr (c : Nat) (s : State) : KeepsCycle s (readCsr c s) := by
  unfold readCsr
  split
  -- COND, whose read depends on BUSY; the other numbers
  case h_5 => split <;> exact ⟨rfl, rfl, rfl, rfl, rfl, id⟩
  all_goals exact ⟨rfl, rfl, rfl, rfl, rfl, id⟩

/-- A write of a control register keeps the cycle but for CMD and CTRL, which offer a command, acknowledge a fault or
reset the engine (R34, R35). -/
theorem writeCsr_cases (c x : Nat) (s : State) :
    KeepsCycle s (writeCsr c x s) ∨ (∃ w, writeCsr c x s = s.offer w) ∨ writeCsr c x s = acknowledge s ∨
      writeCsr c x s = softReset s := by
  unfold writeCsr
  split
  next => exact .inr (.inl ⟨_, rfl⟩)
  next => exact .inl ⟨rfl, rfl, rfl, rfl, rfl, fun done => by simp [writeStatus, done]⟩
  next => exact .inl ⟨rfl, rfl, rfl, rfl, rfl, id⟩
  next =>
    rw [writeCtrl]
    split
    next => exact .inr (.inr (.inr rfl))
    next =>
      split
      next => exact .inr (.inr (.inl rfl))
      next => exact .inl ⟨rfl, rfl, rfl, rfl, rfl, id⟩
  next => rw [writeCond]; split <;> exact .inl ⟨rfl, rfl, rfl, rfl, rfl, id⟩
  next => exact .inl ⟨rfl, rfl, rfl, rfl, rfl, id⟩

theorem controlInv_writeCsr {s : State} (inv : ControlInv s) (c x : Nat) : ControlInv (writeCsr c x s) := by
  obtain kept | ⟨w, offered⟩ | acknowledged | reset := writeCsr_cases c x s
  · exact controlInv_of_keepsCycle inv kept
  · exact offered ▸ controlInv_offer inv w
  · exact acknowledged ▸ controlInv_acknowledge inv
  · exact reset ▸ controlInv_of_cleared rfl rfl rfl rfl

theorem controlInv_hostStep {op : HostOp} {s t : State} (inv : ControlInv s) (h : hostStep op s = .next t) :
    ControlInv t := by
  cases op <;> rw [hostStep] at h
  case wrWord | wrFlags | wrS =>
    obtain ⟨-, rfl⟩ := fitting_next h
    exact controlInv_of_keepsCycle inv (keepsCycle_guardedWrite ⟨rfl, rfl, rfl, rfl, rfl, id⟩)
  case wrCsr c x =>
    obtain ⟨-, rfl⟩ := fitting_next h
    exact controlInv_writeCsr inv c x
  case rdWord | rdFlags | rdS =>
    cases h
    exact controlInv_of_keepsCycle inv (keepsCycle_guardedRead ..)
  case rdCsr c =>
    cases h
    exact controlInv_of_keepsCycle inv (keepsCycle_readCsr c s)

/-- Settles O44: taking the turn keeps the invariant, and so does each kind of turn. -/
theorem everyStepKeepsTheControlInvariant : Obligations.EveryStepKeepsTheControlInvariant := by
  intro s t inv next
  obtain ⟨rest, engine | ⟨op, host⟩ | rfl⟩ := step_cases next
  all_goals
    have taken : ControlInv { s with order := rest } := controlInv_of_keepsCycle inv ⟨rfl, rfl, rfl, rfl, rfl, id⟩
  · obtain rfl | ⟨in_flight, done | ⟨cause, ne_none, rfl⟩⟩ := engineStep_cases engine
    · exact taken
    · exact controlInv_of_completed taken in_flight done
    · exact controlInv_takeFault taken in_flight ne_none
  · exact controlInv_hostStep taken host
  · exact controlInv_of_cleared rfl rfl rfl rfl

end Sys2Proof.Proofs
end

section
/-! Proofs of the statements about the engine's turn and the control and status registers (10_state.md 4 to 6,
60_exceptions.md 2 and 3, 70_reset_and_hazards.md 1). -/

namespace Sys2Proof.Proofs

open Sys2Proof.Machine Sys2Proof.Laws Sys2Proof.Safety Sys2Proof.Claims

/-! ### The engine's turn -/

/-- On its listed turn, or on an empty order, the engine moves (R62, log entry 5). -/
theorem step_of_engine_turn {s : State} {rest : List Turn}
    (h : s.order = .engine :: rest ∨ (s.order = [] ∧ rest = [])) : step s = engineStep { s with order := rest } := by
  obtain turn | ⟨empty, rfl⟩ := h
  case inl => simp only [step, turn]
  case inr =>
    have same : { s with order := [] } = s := by rw [← empty]
    rw [same]
    simp only [step, empty]

/-- Fault entry writes the record and leaves V, S, COND and the rest as they were (R305, R306). -/
theorem faultEntry_takeFault (c : Cause) (s : State) : FaultEntry c s (takeFault c s) where
  cfg := rfl
  status := rfl
  ifc := rfl
  cause := rfl
  fcmd w in_flight := by rw [takeFault_fcmd, in_flight]; rfl
  ie := rfl
  order := rfl
  returned := rfl
  draws := rfl
  cond := rfl
  bigs := bigsKept_refl s []
  scalars := scalarsKept_refl s []

/-- A word in flight that takes a fault is recorded in FCMD (R306). -/
theorem fault_of_word_in_flight {s : State} {c : Word} {cause : Cause} (in_flight : s.ifc = some c)
    (fault : execute c s = raise cause s) : ∃ t, engineStep s = .next t ∧ FaultEntry cause s t ∧ t.fcmd = c := by
  have entry := faultEntry_takeFault cause s
  exact ⟨_, (engineStep_in_flight in_flight).trans fault, entry, entry.fcmd c in_flight⟩

/-- Settles O38: the engine runs the word in the latch, and a word that does not decode enters its fault. -/
theorem stepRunsTheDecodedCommand : Obligations.StepRunsTheDecodedCommand := by
  intro s rest turn s1
  rw [step_of_engine_turn turn]
  refine ⟨fun empty => engineStep_empty (s := s1) empty, fun c i in_flight decoded => ?_,
    fun c in_flight refused => fault_of_word_in_flight (s := s1) in_flight ?_,
    fun c in_flight refused => fault_of_word_in_flight (s := s1) in_flight ?_⟩
  · exact (engineStep_in_flight (s := s1) in_flight).trans (by rw [execute, decoded])
  · rw [execute, refused]
  · rw [execute, refused]

/-! ### Writes of the control registers -/

/-- A host write of a control register is performed for every 32-bit word (R53). -/
theorem step_of_csr_write {s : State} {rest : List Turn} {c x : Nat} (turn : s.order = .host (.wrCsr c x) :: rest)
    (hx : x < 2 ^ 32) : step s = .next (writeCsr c x { s with order := rest }) := by
  rw [step_of_host_turn turn, hostStep, fitting_of_lt hx]

/-- A bit of the word the host writes is a bit of the number. -/
theorem hostBit_eq_testBit (x n : Nat) : hostBit x n = x.testBit n := by
  rw [hostBit, Nat.testBit_eq_decide_div_mod_eq, beq_eq_decide]

/-- A write of CMD offers the word (R34). -/
theorem step_of_command_write {s : State} {rest : List Turn} {c : Word}
    (turn : s.order = .host (.wrCsr 0 c.toNat) :: rest) : step s = .next (State.offer { s with order := rest } c) := by
  rw [step_of_csr_write turn c.isLt, writeCsr, BitVec.ofNat_toNat, BitVec.setWidth_eq]

/-- A command offered while BUSY or FAULT is lost (R34, R351). -/
theorem offer_lost {s : State} (h : s.status.busy = true ∨ s.status.fault = true) (c : Word) :
    s.offer c = { s with status := { s.status with lost := true } } := if_pos (by simpa using h)

/-- Any other command is accepted (R34). -/
theorem offer_accepted {s : State} (h : ¬ (s.status.busy = true ∨ s.status.fault = true)) (c : Word) :
    s.offer c = { s with ifc := some c, status := { s.status with busy := true, done := false } } :=
  if_neg (by simpa using h)

/-- Settles O39: the two branches of an offer. -/
theorem offeredCommandIsAcceptedOrLost : Obligations.OfferedCommandIsAcceptedOrLost := by
  intro s rest c turn
  rw [step_of_command_write turn]
  split
  case isTrue refused => exact congrArg Host.Outcome.next (offer_lost (s := { s with order := rest }) refused c)
  case isFalse ready => exact congrArg Host.Outcome.next (offer_accepted (s := { s with order := rest }) ready c)

/-- A write of CTRL with bit 1 is a soft reset, whatever bit 0 is (R35). -/
theorem writeCtrl_sreset {x : Nat} (h : x.testBit 1 = true) (s : State) : writeCtrl x s = softReset s :=
  if_pos ((hostBit_eq_testBit x 1).trans h)

/-- A write of CTRL with bit 0 alone is an acknowledgement (R35). -/
theorem writeCtrl_fack {x : Nat} (h0 : x.testBit 0 = true) (h1 : x.testBit 1 = false) (s : State) :
    writeCtrl x s = acknowledge s := by
  simp [writeCtrl, hostBit_eq_testBit, h0, h1]

/-- A write of CTRL with neither bit has no effect (R35). -/
theorem writeCtrl_none {x : Nat} (h0 : x.testBit 0 = false) (h1 : x.testBit 1 = false) (s : State) :
    writeCtrl x s = s := by
  simp [writeCtrl, hostBit_eq_testBit, h0, h1]

/-- The read-only and reserved numbers ignore a write (R28). -/
theorem writeCsr_ignored {c : Nat} (h : c = 2 ∨ c = 3 ∨ c = 7 ∨ 8 ≤ c) (x : Nat) (s : State) :
    writeCsr c x s = s := by
  unfold writeCsr
  split
  case h_6 => rfl
  all_goals omega

/-- Settles O53: the rule of each register that takes a write, and the numbers that take none. -/
theorem controlRegisterWrites : Obligations.ControlRegisterWrites := by
  intro s rest c x turn hx
  rw [step_of_csr_write turn hx]
  refine ⟨?status, ?ie, ?cond, ?ctrl, ?ignored⟩
  case status => rintro rfl; simp only [writeCsr, writeStatus, hostBit_eq_testBit]
  case ie => rintro rfl; simp only [writeCsr, hostBit_eq_testBit]
  case cond =>
    rintro rfl idle
    simp only [writeCsr, writeCond, idle, Bool.false_eq_true, if_false, hostBit_eq_testBit]
  case ctrl => rintro rfl bit0 bit1; rw [writeCsr, writeCtrl_none bit0 bit1]
  case ignored => exact fun ignored => by rw [writeCsr_ignored ignored]

/-! ### Resets and the return from a fault -/

/-- Settles O42: bit 1 of CTRL is the soft reset, and both resets write the same control registers. -/
theorem resetsClearTheControlRegisters : Obligations.ResetsClearTheControlRegisters := by
  rintro s rest x (⟨turn, hx, sreset⟩ | turn)
  case inl =>
    have bit1 : x.testBit 1 = true := by rw [Nat.testBit_succ, Nat.testBit_zero, decide_eq_true sreset]
    refine ⟨softReset { s with order := rest }, ?_, rfl, rfl, rfl, rfl, rfl, rfl, rfl, rfl, rfl, rfl,
      fun _ => ⟨bigsKept_refl s [], scalarsKept_refl s []⟩⟩
    rw [step_of_csr_write turn hx, writeCsr, writeCtrl_sreset bit1]
  case inr =>
    refine ⟨hardReset { s with order := rest }, ?_, hardReset_cfg _, hardReset_order _, hardReset_returned _,
      hardReset_status _, hardReset_cause _, hardReset_fcmd _, hardReset_ie _, hardReset_cond _, hardReset_ifc _,
      by simp [State.irq], fun other_turn => absurd turn other_turn⟩
    simp only [step, turn]

/-- While FAULT is 1 nothing is in flight (R29, R34). -/
theorem idle_of_fault {s : State} (inv : ControlInv s) (fault : s.status.fault = true) :
    s.status.busy = false ∧ s.ifc = none := by
  have idle : s.status.busy = false := Bool.eq_false_iff.mpr fun busy => by
    simp [(inv.busy_clear busy).1] at fault
  have empty : s.ifc.isSome = false := inv.busy_iff.symm.trans idle
  exact ⟨idle, by simpa using empty⟩

/-- While BUSY = 0 a write of a register file whose check holds is performed (R53). -/
theorem guardedWrite_idle {s : State} {rest : List Turn} (idle : s.status.busy = false) (t : State) :
    guardedWrite true { s with order := rest } t = t := by
  simp [guardedWrite, idle]

/-- While BUSY = 0 a read of a register file whose check holds answers the unit and changes nothing else (R53). -/
theorem guardedRead_idle {s : State} {rest : List Turn} (idle : s.status.busy = false) (w x : Nat) :
    guardedRead true w x { s with order := rest } = { s with order := rest, returned := x :: s.returned } := by
  simp [guardedRead, idle, State.answer]

/-- A write of a scalar is read back, and the other registers are kept (R53). -/
theorem setScalar_reads_back {s : State} {x : Nat} (k : SReg) (hx : x < 2 ^ s.cfg.scalarBits) :
    (s.setScalar k x).scalar k = x ∧ BigsKept s (s.setScalar k x) [] ∧ ScalarsKept s (s.setScalar k x) [k] := by
  refine ⟨by simp [Nat.mod_eq_of_lt hx], fun _ _ => ⟨rfl, rfl⟩, fun u other => ?_⟩
  have : u ≠ k := by simpa using other
  simp [this]

/-- Settles O41: FACK is CTRL bit 0 alone; under a fault the latch is empty and BUSY is 0, so the engine rests, an offer
is lost, and the host port is open. -/
theorem faultHoldsUntilAcknowledged : Obligations.FaultHoldsUntilAcknowledged := by
  intro s rest inv
  refine ⟨fun x hx fack no_sreset turn => ?_, fun fault => ?_⟩
  · have bit0 : x.testBit 0 = true := by rw [Nat.testBit_zero, decide_eq_true fack]
    have bit1 : x.testBit 1 = false := by rw [Nat.testBit_succ, Nat.testBit_zero]; simp [no_sreset]
    rw [step_of_csr_write turn hx, writeCsr, writeCtrl_fack bit0 bit1]
    rfl
  · obtain ⟨idle, empty⟩ := idle_of_fault inv fault
    refine ⟨fun turn => ?engine, fun c turn => ?offer, fun v turn => ?read, fun k x hx turn => ?write⟩
    case engine =>
      rw [step_of_engine_turn (.inl turn)]
      exact engineStep_empty empty
    case offer =>
      rw [step_of_command_write turn]
      exact congrArg Host.Outcome.next (offer_lost (s := { s with order := rest }) (.inr fault) c)
    case read =>
      rw [step_of_host_turn turn, hostStep, guardedRead_idle idle]
      rfl
    case write =>
      rw [step_of_host_turn turn, hostStep, fitting_of_lt hx, guardedWrite_idle idle]
      obtain ⟨reads_back, bigs, scalars⟩ := setScalar_reads_back (s := { s with order := rest }) k hx
      exact ⟨_, rfl, reads_back, rfl, bigs, scalars⟩

/-! ### Interrupts (R320, R322) -/

/-- The two clauses of R322 on IRQ after a command: it follows the enable of the bit the command set. -/
theorem irq_after_command {s t : State} (inv : ControlInv s) (busy : s.status.busy = true) :
    (Completed s t → t.irq = s.ie.doneIE) ∧ (∀ c, FaultEntry c s t → t.irq = s.ie.faultIE) := by
  obtain ⟨no_fault, not_done⟩ := inv.busy_clear busy
  refine ⟨fun done => ?_, fun c fault => ?_⟩
  · simp [State.irq, done.status, done.ie, no_fault]
  · simp [State.irq, fault.status, fault.ie, not_done]

/-- Settles O54: each clearing write takes away the one term of IRQ that can be 1: without a fault that is DONE, and
under a fault DONE is 0 by the invariant. -/
theorem interruptFollowsDoneAndFault : Obligations.InterruptFollowsDoneAndFault := by
  refine ⟨fun i s t inv busy _ => irq_after_command inv busy, fun s t rest c x inv turn hx next => ?_⟩
  cases (step_of_csr_write turn hx).symm.trans next
  refine ⟨fun no_fault => ?done, fun fault => ?fault⟩
  case done =>
    rintro (⟨rfl, clears⟩ | ⟨rfl, disables⟩ | ⟨rfl, idle⟩)
    · simp [State.irq, writeCsr, writeStatus, hostBit_eq_testBit, clears, no_fault]
    · simp [State.irq, writeCsr, hostBit_eq_testBit, disables, no_fault]
    · simp [State.irq, writeCsr, State.offer, idle, no_fault]
  case fault =>
    have not_done := inv.fault_not_done fault
    rintro (⟨rfl, fack⟩ | ⟨rfl, disables⟩)
    · rw [writeCsr]
      cases sreset : x.testBit 1
      · simp [writeCtrl_fack fack sreset, State.irq, not_done]
      · simp [writeCtrl_sreset sreset, State.irq]
    · simp [State.irq, writeCsr, hostBit_eq_testBit, disables, not_done]

/-! ### Reads of the control registers -/

/-- What a read of a control register answers, COND while BUSY aside (R28 to R33, R26). -/
def csrValue (c : Nat) (s : State) : Nat :=
  match c with
  | 1 => s.status.word
  | 2 => s.cause.code
  | 3 => s.fcmd.toNat
  | 4 => s.ie.word
  | 6 => s.cond.word
  | 7 => configWord s.cfg
  | _ => 0

theorem readCsr_eq_answer {c : Nat} {s : State} (readable : c = 6 → s.status.busy = false) :
    readCsr c s = s.answer (csrValue c s) := by
  unfold readCsr
  split
  -- COND, which is read while BUSY = 0; the numbers without a word; the other registers
  case h_5 => rw [readable rfl]; rfl
  case h_7 => simp [csrValue, *]
  all_goals rfl

/-- The bits of STATUS (R29). -/
theorem status_word_bits (st : Status) :
    st.word.testBit 0 = st.busy ∧ st.word.testBit 1 = st.fault ∧ st.word.testBit 2 = st.done ∧
      st.word.testBit 3 = st.lost ∧ st.word < 16 := by
  obtain ⟨busy, fault, done, lost⟩ := st
  revert busy fault done lost
  decide

/-- The bits of IE (R32). -/
theorem ie_word_bits (e : IntEnable) :
    e.word.testBit 0 = e.doneIE ∧ e.word.testBit 1 = e.faultIE ∧ e.word < 4 := by
  obtain ⟨doneIE, faultIE⟩ := e
  revert doneIE faultIE
  decide

/-- The bits of COND (R26). -/
theorem cond_word_bits (c : Cond) : c.word.testBit 0 = c.b ∧ c.word.testBit 1 = c.none ∧ c.word < 4 := by
  obtain ⟨b, none⟩ := c
  revert b none
  decide

/-- The codes of R301, in their order. -/
theorem cause_code_spec (c : Cause) :
    [Cause.none, .illegalOpcode, .illegalForm, .uncheckedOverflow, .uncheckedUnderflow, .uncheckedDivzero, .gcdZero,
      .rootZeroExp][c.code]? = some c ∧ c.code < 8 := by
  cases c <;> decide

/-- The fields of CONFIG (R33). -/
theorem config_word_fields (c : Config) :
    configWord c % 256 = c.wordBits % 256 ∧ configWord c / 256 % 65536 = c.words ∧
      (configWord c).testBit 24 = c.hostBigEndian ∧ configWord c < 2 ^ 25 := by
  have words_le := c.words_le
  rw [Nat.testBit_eq_decide_div_mod_eq, configWord]
  cases c.hostBigEndian
  all_goals
    simp only [Bool.toNat_true, Bool.toNat_false, decide_eq_true_eq, decide_eq_false_iff_not]
    omega

theorem csrValue_lt (c : Nat) (s : State) : csrValue c s < 2 ^ 32 := by
  unfold csrValue
  split
  · have := status_word_bits s.status; omega
  · have := cause_code_spec s.cause; omega
  · exact s.fcmd.isLt
  · have := ie_word_bits s.ie; omega
  · have := cond_word_bits s.cond; omega
  · have := config_word_fields s.cfg; omega
  · decide

/-- The numbers that are no readable register answer 0 (R28). -/
theorem csrValue_zero {c : Nat} (h : c = 0 ∨ c = 5 ∨ 8 ≤ c) (s : State) : csrValue c s = 0 := by
  unfold csrValue
  split
  case h_7 => rfl
  all_goals omega

/-- Settles O52: a read answers the register's word, whose fields are those of its layout. -/
theorem controlRegistersReadAsTheirWords : Obligations.ControlRegistersReadAsTheirWords := by
  intro s rest c turn readable
  refine ⟨csrValue c s, ?step, csrValue_lt c s, ?status, ?cause, ?fcmd, ?ie, ?cond, ?config, ?reserved⟩
  case step =>
    rw [step_of_host_turn turn, hostStep, readCsr_eq_answer (s := { s with order := rest }) readable]
    rfl
  case status => rintro rfl; exact status_word_bits s.status
  case cause => rintro rfl; exact (cause_code_spec s.cause).1
  case fcmd => rintro rfl; rfl
  case ie => rintro rfl; exact ie_word_bits s.ie
  case cond => rintro rfl; exact cond_word_bits s.cond
  case config => rintro rfl; exact config_word_fields s.cfg
  case reserved => exact fun reserved => csrValue_zero reserved s

end Sys2Proof.Proofs
end

section
/-! Proofs of the statements about host accesses to the register files (20_memory.md 2), with BUSY 0 and with BUSY 1. -/

namespace Sys2Proof.Proofs

open Sys2Proof.Machine Sys2Proof.Laws Sys2Proof.Safety Sys2Proof.Claims

/-! ### With BUSY = 0 -/

section

variable {s : State} {i w : Nat} (v : VReg) (hi : i < s.cfg.words) (hw : w < 2 ^ s.cfg.wordBits)
include hi hw

/-- The value after a write of a word in range fits the register as it is (R7). -/
theorem setWord_big_same : (s.setWord v i w).big v = replaceWord s.cfg.wordBits (s.big v) i w := by
  have fits : replaceWord s.cfg.wordBits (s.big v) i w < s.cfg.modulus := replaceWord_lt hw (big_lt s v) hi
  rw [setWord_big, if_pos rfl, Nat.mod_eq_of_lt fits]

/-- A written word is read back. -/
theorem setWord_word_same : (s.setWord v i w).word v i = w := by
  rw [State.word, setWord_big_same v hi hw]
  exact replaceWord_same _ _ hw

/-- Every other word is kept, in the same register and in the others. -/
theorem setWord_word_other {u : VReg} {j : Nat} (other : (u, j) ≠ (v, i)) :
    (s.setWord v i w).word u j = s.word u j := by
  rw [State.word, State.word]
  by_cases same : u = v
  case pos =>
    subst same
    have index : j ≠ i := fun e => other (e ▸ rfl)
    rw [setWord_big_same u hi hw]
    exact replaceWord_other _ hw index
  case neg => rw [setWord_big, if_neg same]; rfl

end

/-- A write of a flag field keeps the other registers. -/
theorem bigsKept_setFlags (s : State) (v : VReg) (f : FlagField) : BigsKept s (s.setFlags v f) [v] := by
  intro u other
  have : u ≠ v := by simpa using other
  simp [this]

/-- Settles O49: the guard is open, so a write is the write of the unit and a read answers it. -/
theorem hostReadsWhatItWrote : Obligations.HostReadsWhatItWrote := by
  intro s rest idle
  refine ⟨fun v i w hi hw turn => ?wrWord, fun v x hx turn => ?wrFlags, fun k x hx turn => ?wrS,
    fun v i hi turn => ?rdWord, fun v turn => ?rdFlags, fun k turn => ?rdS⟩
  case wrWord =>
    rw [step_of_host_turn turn, hostStep, fitting_of_lt hw, decide_eq_true hi, guardedWrite_idle idle]
    exact ⟨_, rfl, setWord_word_same v hi hw, fun _ _ other _ => setWord_word_other v hi hw other,
      fun _ => setWord_bigFlags _ v i w _, scalarsKept_refl s [], ⟨rfl, rfl, rfl, rfl, rfl, rfl, rfl, rfl, rfl, rfl⟩⟩
  case wrFlags =>
    rw [step_of_host_turn turn, hostStep, fitting_of_lt hx, guardedWrite_idle idle]
    refine ⟨_, rfl, ?_, fun _ => setFlags_big _ v _ _, bigsKept_setFlags _ v _, scalarsKept_refl s [],
      ⟨rfl, rfl, rfl, rfl, rfl, rfl, rfl, rfl, rfl, rfl⟩⟩
    rw [setFlags_bigFlags, if_pos rfl, BitVec.toNat_ofNat, Nat.mod_eq_of_lt hx]
  case wrS =>
    rw [step_of_host_turn turn, hostStep, fitting_of_lt hx, guardedWrite_idle idle]
    obtain ⟨reads_back, bigs, scalars⟩ := setScalar_reads_back (s := { s with order := rest }) k hx
    exact ⟨_, rfl, reads_back, bigs, scalars, ⟨rfl, rfl, rfl, rfl, rfl, rfl, rfl, rfl, rfl, rfl⟩⟩
  case rdWord =>
    rw [step_of_host_turn turn, hostStep, decide_eq_true hi, guardedRead_idle idle]
    rfl
  case rdFlags | rdS =>
    rw [step_of_host_turn turn, hostStep, guardedRead_idle idle]
    rfl

/-! ### With BUSY = 1 -/

section

variable {s : State} {rest : List Turn} (busy : s.status.busy = true)
include busy

/-- While BUSY a write of a register file is discarded, whatever its check says (R55). -/
theorem guardedWrite_busy (ok : Bool) (t : State) :
    guardedWrite ok { s with order := rest } t =
      { s with order := rest, status := { s.status with lost := true } } := by
  simp [guardedWrite, busy, State.markLost]

/-- While BUSY a read of a register file answers an unspecified value, whatever its check says (R55). -/
theorem guardedRead_busy (ok : Bool) (w x : Nat) :
    guardedRead ok w x { s with order := rest } = State.answerUnspecified { s with order := rest } w := by
  simp [guardedRead, busy]

/-- While BUSY a write of COND is discarded (R26, R55). -/
theorem writeCond_busy (x : Nat) :
    writeCond x { s with order := rest } = { s with order := rest, status := { s.status with lost := true } } := by
  simp [writeCond, busy, State.markLost]

/-- While BUSY a read of COND answers two unspecified bits (R55, log entry 12). -/
theorem readCsr_cond_busy :
    readCsr 6 { s with order := rest } = State.answerUnspecified { s with order := rest } 2 := by
  simp [readCsr, busy]

end

/-- Settles O50: the guard of the unit is closed, so a write only marks LOST and a read answers an unspecified value. -/
theorem busyHostAccessIsDiscarded : Obligations.BusyHostAccessIsDiscarded := by
  intro s rest busy
  constructor
  case left =>
    rintro op turn (⟨v, i, w, rfl, hw⟩ | ⟨v, x, rfl, hx⟩ | ⟨k, x, rfl, hx⟩ | ⟨x, rfl, hx⟩)
    · rw [step_of_host_turn turn, hostStep, fitting_of_lt hw, guardedWrite_busy busy]
    · rw [step_of_host_turn turn, hostStep, fitting_of_lt hx, guardedWrite_busy busy]
    · rw [step_of_host_turn turn, hostStep, fitting_of_lt hx, guardedWrite_busy busy]
    · rw [step_of_csr_write turn hx, writeCsr, writeCond_busy busy]
  case right =>
    rintro op n turn (⟨v, i, rfl, rfl⟩ | ⟨v, rfl, rfl⟩ | ⟨k, rfl, rfl⟩ | ⟨rfl, rfl⟩)
    all_goals apply unspecified_read_of_step
    · rw [step_of_host_turn turn, hostStep, guardedRead_busy busy]
    · rw [step_of_host_turn turn, hostStep, guardedRead_busy busy]
    · rw [step_of_host_turn turn, hostStep, guardedRead_busy busy]
    · rw [step_of_host_turn turn, hostStep, readCsr_cond_busy busy]

end Sys2Proof.Proofs
end

section
/-! Proofs of the statements over all commands: what a command leaves alone, the causes it faults with, and the flags it
keeps and adds (10_state.md 2, 4 and 6, 60_exceptions.md 1). How each command ends, with its cause and its flags, is
said once, by its result form. -/

namespace Sys2Proof.Proofs

open Sys2Proof.Machine Sys2Proof.Laws Sys2Proof.Safety Sys2Proof.Claims

/-- Settles O46: a completion keeps what the footprint does not name, and fault entry keeps every register and COND. -/
theorem everyCommandKeepsWhatItDoesNotName : Obligations.EveryCommandKeepsWhatItDoesNotName := by
  intro i s
  obtain ⟨t, next, done, bigs, scalars, cond_b, cond_none⟩ | ⟨c, -, next⟩ := exec_ends i s
  case inl =>
    exact ⟨t, next, bigs, scalars, cond_b, cond_none, done.cfg, done.ie, done.order, done.returned, done.draws,
      done.ifc, by rw [done.status], by rw [done.status]⟩
  case inr =>
    exact ⟨takeFault c s, next, bigsKept_refl s _, scalarsKept_refl s _, fun _ => rfl, fun _ => rfl, rfl, rfl, rfl, rfl,
      rfl, rfl, rfl, rfl⟩

/-! ### How a command ends -/

/-- The cause the rules give a command for its operands, if any: the execution faults of R301, and ILLEGAL_FORM for a
command no word decodes to (R77, log entry 8). -/
def listedFault (i : Instr) (s : State) : Option Cause :=
  if i.wellFormed then executionFault i s else some .illegalForm

/-- R22 lists the command for every one of these flags. -/
def MayAdd (i : Instr) (new : FlagField) : Prop :=
  ∀ j, j < 4 → new.getLsbD j = true →
    (j = 0 ∧ mayOverflow i = true) ∨ (j = 1 ∧ mayUnderflow i = true) ∨ (j = 2 ∧ mayBeInfinite i = true) ∨
      (j = 3 ∧ mayDivideByZero i = true)

/-- How `i` takes `s` to `t`, with the cause and the flags its rule gives. -/
inductive EndsAs (i : Instr) (s t : State) : Prop where
  /-- A result: every destination gets RS1's flags and listed ones (R22, R23). -/
  | result {rs1 : VReg} (never : listedFault i s = none) (done : Completed s t) (self : i.self = some rs1)
      (flags : ∀ v ∈ i.vDests, ∃ new, MayAdd i new ∧ t.bigFlags v = s.bigFlags rs1 ||| new)
  /-- A CHK command that answers None and writes nothing else (R72). -/
  | noResult (never : listedFault i s = none) (done : Completed s t) (checked : i.checked = true)
      (none : t.cond.none = true) (kept : BigsKept s t [])
  /-- A command that inherits no flags: to its destination's own flags it adds listed ones at most. -/
  | own (never : listedFault i s = none) (done : Completed s t) (self : i.self = none)
      (flags : ∀ v ∈ i.vDests, MayAdd i (t.bigFlags v &&& ~~~s.bigFlags v))
  /-- A fault with the listed cause (R306). -/
  | fault {c : Cause} (listed : listedFault i s = some c) (entry : t = takeFault c s)

/-- The answer is a next state that `i` may end in. -/
def RunsAs (i : Instr) (s : State) (a : Answer) : Prop := ∃ t, a = .next t ∧ EndsAs i s t

/-! ### The flags a rule adds (R22, R24) -/

section

variable {i : Instr}

theorem mayAdd_zero (i : Instr) : MayAdd i 0 := fun j _ set => by simp at set

theorem mayAdd_or {f g : FlagField} (hf : MayAdd i f) (hg : MayAdd i g) : MayAdd i (f ||| g) := by
  intro j hj set
  rw [BitVec.getLsbD_or, Bool.or_eq_true] at set
  exact set.elim (hf j hj) (hg j hj)

theorem mayAdd_flagsWhen {m : FlagField} (h : MayAdd i m) (c : Bool) : MayAdd i (flagsWhen c m) := by
  cases c
  case false => exact mayAdd_zero i
  case true => exact h

theorem mayAdd_flagO (h : mayOverflow i = true) : MayAdd i flagO := fun j hj set =>
  .inl ⟨(by decide : ∀ j < 4, flagO.getLsbD j = true → j = 0) j hj set, h⟩

theorem mayAdd_flagU (h : mayUnderflow i = true) : MayAdd i flagU := fun j hj set =>
  .inr (.inl ⟨(by decide : ∀ j < 4, flagU.getLsbD j = true → j = 1) j hj set, h⟩)

theorem mayAdd_flagI (h : mayBeInfinite i = true) : MayAdd i flagI := fun j hj set =>
  .inr (.inr (.inl ⟨(by decide : ∀ j < 4, flagI.getLsbD j = true → j = 2) j hj set, h⟩))

theorem mayAdd_flagD (h : mayDivideByZero i = true) : MayAdd i flagD := fun j hj set =>
  .inr (.inr (.inr ⟨(by decide : ∀ j < 4, flagD.getLsbD j = true → j = 3) j hj set, h⟩))

theorem mayAdd_overflowFlags (h : mayOverflow i = true) (c : Bool) : MayAdd i (overflowFlags c) :=
  mayAdd_flagsWhen (mayAdd_flagO h) c

theorem mayAdd_underflowFlags (h : mayUnderflow i = true) (c : Bool) : MayAdd i (underflowFlags c) :=
  mayAdd_flagsWhen (mayAdd_flagU h) c

theorem mayAdd_quotientFlags (ho : mayOverflow i = true) (hi : mayBeInfinite i = true)
    (hd : mayDivideByZero i = true) : MayAdd i quotientFlags :=
  mayAdd_or (mayAdd_or (mayAdd_flagO ho) (mayAdd_flagI hi)) (mayAdd_flagD hd)

variable {m a r : Nat}

theorem mayAdd_quotNew (ho : mayOverflow i = true) (hi : mayBeInfinite i = true) (hd : mayDivideByZero i = true) :
    MayAdd i (divFull m a r).quotNew := by
  rw [divFull]
  split
  next => exact mayAdd_quotientFlags ho hi hd
  next => exact mayAdd_zero i

theorem mayAdd_remNew (h : mayDivideByZero i = true) : MayAdd i (divFull m a r).remNew := by
  rw [divFull]
  split
  next => exact mayAdd_flagD h
  next => exact mayAdd_zero i

/-- FSET is listed for every flag. -/
theorem mayAdd_fset (rd : VReg) (imm : Imm4) (new : FlagField) : MayAdd (.fset rd imm) new := by
  intro j hj _
  simp only [mayOverflow, mayUnderflow, mayBeInfinite, mayDivideByZero, and_true]
  omega

/-- FCLR adds no flag. -/
theorem mayAdd_fclr (rd : VReg) (imm : Imm4) (f : FlagField) : MayAdd (.fclr rd imm) (f &&& ~~~imm &&& ~~~f) := by
  intro j hj set
  simp only [BitVec.getLsbD_and, BitVec.getLsbD_not, hj] at set
  cases bit : f.getLsbD j <;> simp [bit] at set

end

/-! ### The result forms -/

section

variable {i : Instr} {s : State} {rd rs1 : VReg} {x : Nat} {new : FlagField}

/-- One destination that gets RS1's flags and listed ones. -/
theorem runsAs_result {u : State} (never : listedFault i s = none) (done : Completed s u.completed)
    (dests : i.vDests = [rd]) (self : i.self = some rs1) (listed : MayAdd i new)
    (flags : u.bigFlags rd = s.bigFlags rs1 ||| new) : RunsAs i s (complete u) := by
  refine ⟨u.completed, rfl, .result never done self fun v dest => ⟨new, listed, ?_⟩⟩
  obtain rfl : v = rd := by simpa [dests] using dest
  exact flags

variable (never : listedFault i s = none) (dests : i.vDests = [rd]) (self : i.self = some rs1)

include never dests

theorem runsAs_freshForm (no_self : i.self = none) : RunsAs i s (freshForm rd x s) := by
  refine ⟨_, rfl, .own never (completed_completed rfl rfl rfl rfl rfl rfl rfl rfl) no_self fun v dest => ?_⟩
  obtain rfl : v = rd := by simpa [dests] using dest
  rw [completed_bigFlags, setBig_bigFlags, if_pos rfl, show 0 &&& ~~~s.bigFlags v = 0 from BitVec.zero_and]
  exact mayAdd_zero i

theorem runsAs_setFlags {f : FlagField} (no_self : i.self = none) (listed : MayAdd i (f &&& ~~~s.bigFlags rd)) :
    RunsAs i s (complete (s.setFlags rd f)) := by
  refine ⟨_, rfl, .own never (completed_completed rfl rfl rfl rfl rfl rfl rfl rfl) no_self fun v dest => ?_⟩
  obtain rfl : v = rd := by simpa [dests] using dest
  rwa [completed_bigFlags, setFlags_bigFlags, if_pos rfl]

include self

theorem runsAs_valueForm (listed : MayAdd i new) : RunsAs i s (valueForm rd rs1 x new s) :=
  runsAs_result never (completed_completed rfl rfl rfl rfl rfl rfl rfl rfl) dests self listed
    (by simp [writeResult, inherit])

theorem runsAs_modularForm {m : Nat} (zero_modulus : MayAdd i quotientFlags) (listed : MayAdd i new) :
    RunsAs i s (modularForm rd rs1 m x new s) := by
  rw [modularForm]
  split
  next => exact runsAs_valueForm never dests self zero_modulus
  next => exact runsAs_valueForm never dests self listed

theorem runsAs_ovfForm {bad : Bool} (listed : MayAdd i new) : RunsAs i s (ovfForm rd rs1 x new bad s) :=
  runsAs_result never (completed_completed rfl rfl rfl rfl rfl rfl rfl rfl) dests self listed
    (by simp [writeResult, inherit])

theorem runsAs_chkForm {bad : Bool} (checked : i.checked = true) : RunsAs i s (chkForm rd rs1 x bad s) := by
  cases bad
  case true =>
    exact ⟨_, rfl,
      .noResult never (completed_completed rfl rfl rfl rfl rfl rfl rfl rfl) checked rfl (bigsKept_refl s [])⟩
  case false =>
    exact runsAs_result never (completed_completed rfl rfl rfl rfl rfl rfl rfl rfl) dests self (mayAdd_zero i)
      (by simp [writeResult, inherit])

end

section

variable {i : Instr} {s : State}

/-- UNCHK and the commands like it: a fault on the condition, else a result with RS1's flags (R72). -/
theorem runsAs_unchkForm {rd rs1 : VReg} {x : Nat} {c : Cause} {bad : Prop} [Decidable bad]
    (meaning : exec i s = unchkForm rd rs1 x (decide bad) c s) (dests : i.vDests = [rd]) (self : i.self = some rs1)
    (listed : listedFault i s = if bad then some c else none) : RunsAs i s (exec i s) := by
  rw [meaning]
  by_cases raised : bad
  case pos =>
    rw [decide_eq_true raised]
    exact ⟨_, rfl, .fault (listed.trans (if_pos raised)) rfl⟩
  case neg =>
    rw [decide_eq_false raised]
    exact runsAs_result (listed.trans (if_neg raised)) (completed_completed rfl rfl rfl rfl rfl rfl rfl rfl) dests self
      (mayAdd_zero i) (by simp [writeResult, inherit])

/-- Two destinations: ILLEGAL_FORM if they are one register, else both get RS1's flags and listed ones. -/
theorem runsAs_pairForm {rd rd2 rs1 : VReg} {lo hi : Nat} {newLo newHi : FlagField} (dests : i.vDests = [rd, rd2])
    (self : i.self = some rs1) (listed_lo : MayAdd i newLo) (listed_hi : MayAdd i newHi)
    (listed : listedFault i s = if rd != rd2 then none else some .illegalForm) :
    RunsAs i s (pairForm rd rd2 rs1 lo newLo hi newHi s) := by
  rw [pairForm]
  split
  case isTrue same => exact ⟨_, rfl, .fault (listed.trans (if_neg (by simpa using same))) rfl⟩
  case isFalse different =>
    refine ⟨_, rfl, .result (listed.trans (if_pos (by simpa using different)))
      (completed_completed rfl rfl rfl rfl rfl rfl rfl rfl) self fun v dest => ?_⟩
    obtain rfl | rfl : v = rd ∨ v = rd2 := by simpa [dests] using dest
    case inl => exact ⟨newLo, listed_lo, by simp [writeResult, inherit, different]⟩
    case inr => exact ⟨newHi, listed_hi, by simp [inherit]⟩

/-- A command that writes no big register. -/
theorem runsAs_noBig {u : State} (never : listedFault i s = none) (done : Completed s u.completed)
    (no_self : i.self = none) (no_dests : i.vDests = []) : RunsAs i s (complete u) :=
  ⟨u.completed, rfl, .own never done no_self fun v dest => by simp [no_dests] at dest⟩

theorem runsAs_scalarForm {rd : SReg} {x : Nat} (never : listedFault i s = none) (no_self : i.self = none)
    (no_dests : i.vDests = []) : RunsAs i s (scalarForm rd x s) :=
  runsAs_noBig never (completed_completed rfl rfl rfl rfl rfl rfl rfl rfl) no_self no_dests

theorem runsAs_setB {b : Bool} (never : listedFault i s = none) (no_self : i.self = none)
    (no_dests : i.vDests = []) : RunsAs i s (complete (s.setB b)) :=
  runsAs_noBig never (completed_completed rfl rfl rfl rfl rfl rfl rfl rfl) no_self no_dests

end

theorem runsAs_condw (imm : Imm4) (s : State) : RunsAs (.condw imm) s (execCondw imm s) := by
  have listed : listedFault (.condw imm) s = if imm.toNat < 4 then none else some .illegalForm := by
    simp [listedFault, Instr.wellFormed, executionFault]
  rw [execCondw]
  split
  case isTrue low =>
    exact runsAs_noBig (listed.trans (if_pos low)) (completed_completed rfl rfl rfl rfl rfl rfl rfl rfl) rfl rfl
  case isFalse high => exact ⟨_, rfl, .fault (listed.trans (if_neg high)) rfl⟩

/-- SUB.UNCHK faults exactly on `a < r` (R130). -/
theorem subUnchk_eq (rd rs1 : VReg) (r : Nat) (s : State) :
    subUnchk rd rs1 r s =
      unchkForm rd rs1 (subBorrow s.cfg.modulus (s.big rs1) r false).1 (decide (s.big rs1 < r)) .uncheckedUnderflow
        s := by
  have borrow : (subBorrow s.cfg.modulus (s.big rs1) r false).2 = decide (s.big rs1 < r) := by
    simp [subBorrow]
  rw [subUnchk, borrow]

/-! ### All commands -/

/-- How every command ends, by its result form. -/
theorem exec_runsAs (i : Instr) (s : State) : RunsAs i s (exec i s) := by
  cases i
  case vzero | vone | vmax | vfromu => exact runsAs_freshForm rfl rfl rfl
  case vmov | addSat | addSatU | subSat | subSatU | mulSat | mulSatU | powSat | powSatU | sqrt | bitAnd | bitOr
      | bitXor | bitNot | rotl | rotr | revbits | bswap | tobe | tole =>
    exact runsAs_valueForm rfl rfl rfl (mayAdd_zero _)
  case addWrap | addWrapU | mulWrap | mulWrapU | powWrap | powWrapU | shl =>
    exact runsAs_valueForm rfl rfl rfl (mayAdd_overflowFlags rfl _)
  case subWrap | subWrapU | shr => exact runsAs_valueForm rfl rfl rfl (mayAdd_underflowFlags rfl _)
  case divWrap | divWrapU => exact runsAs_valueForm rfl rfl rfl (mayAdd_quotNew rfl rfl rfl)
  case divSat | divSatU => exact runsAs_valueForm rfl rfl rfl (mayAdd_flagsWhen (mayAdd_flagD rfl) _)
  case remWrap | remWrapU | remSat | remSatU => exact runsAs_valueForm rfl rfl rfl (mayAdd_remNew rfl)
  case addOvf | addOvfU | addCarry | addCarryU | mulOvf | mulOvfU | powOvf | powOvfU =>
    exact runsAs_ovfForm rfl rfl rfl (mayAdd_overflowFlags rfl _)
  case subOvf | subOvfU | subCarry | subCarryU => exact runsAs_ovfForm rfl rfl rfl (mayAdd_underflowFlags rfl _)
  case divOvf | divOvfU => exact runsAs_ovfForm rfl rfl rfl (mayAdd_quotNew rfl rfl rfl)
  case remOvf | remOvfU => exact runsAs_ovfForm rfl rfl rfl (mayAdd_remNew rfl)
  case addChk | addChkU | subChk | subChkU | mulChk | mulChkU | divChk | divChkU | remChk | remChkU | powChk
      | powChkU =>
    exact runsAs_chkForm rfl rfl rfl rfl
  case addUnchk | addUnchkU | divUnchk | divUnchkU | remUnchk | remUnchkU | root | rootU =>
    exact runsAs_unchkForm rfl rfl rfl rfl
  case subUnchk | subUnchkU => exact runsAs_unchkForm (subUnchk_eq ..) rfl rfl rfl
  case mulUnchk | mulUnchkU => exact runsAs_unchkForm (mulUnchk_eq ..) rfl rfl rfl
  case powUnchk | powUnchkU => exact runsAs_unchkForm (powUnchk_eq ..) rfl rfl rfl
  case gcd => exact runsAs_unchkForm (exec_gcd ..) rfl rfl rfl
  case mulWide | mulWideU | mulCarry | mulCarryU =>
    exact runsAs_pairForm rfl rfl (mayAdd_zero _) (mayAdd_zero _) rfl
  case divfull | divfullU =>
    exact runsAs_pairForm rfl rfl (mayAdd_quotNew rfl rfl rfl) (mayAdd_remNew rfl) rfl
  case madd | msub | mmul | mpow =>
    exact runsAs_modularForm rfl rfl rfl (mayAdd_quotientFlags rfl rfl rfl) (mayAdd_zero _)
  case mdiv => exact runsAs_modularForm rfl rfl rfl (mayAdd_quotientFlags rfl rfl rfl) (mayAdd_quotNew rfl rfl rfl)
  case mrem => exact runsAs_modularForm rfl rfl rfl (mayAdd_quotientFlags rfl rfl rfl) (mayAdd_remNew rfl)
  case popcnt | clz | ctz | clzw | ctzw | fget => exact runsAs_scalarForm rfl rfl rfl
  case isprime | ftest => exact runsAs_setB rfl rfl rfl
  case fset rd imm => exact runsAs_setFlags rfl rfl rfl (mayAdd_fset rd imm _)
  case fclr rd imm => exact runsAs_setFlags rfl rfl rfl (mayAdd_fclr rd imm _)
  case condw imm => exact runsAs_condw imm s

/-- Settles O40: a command ends with the listed cause or with none. -/
theorem commandsFaultExactlyAsListed : Obligations.CommandsFaultExactlyAsListed := by
  intro i s
  obtain ⟨t, next, ends⟩ := exec_runsAs i s
  have as_listed : match listedFault i s with
      | some c => FaultEntry c s t
      | none => Completed s t := by
    cases ends with
    | result never done | noResult never done | own never done => rw [never]; exact done
    | @fault c listed entry => rw [listed, entry]; exact faultEntry_takeFault c s
  refine ⟨t, next, ?_⟩
  rw [listedFault] at as_listed
  split
  case isTrue well_formed => rw [if_pos well_formed] at as_listed; exact as_listed
  case isFalse ill_formed => rw [if_neg ill_formed] at as_listed; exact as_listed

/-- RS1's flags survive the addition of others (R23). -/
theorem and_or_self (f new : FlagField) : f &&& (f ||| new) = f := by
  ext j hj
  rw [BitVec.getElem_and, BitVec.getElem_or]
  cases f[j] <;> rfl

/-- Settles O47: a destination with a result gets RS1's flags and others; the other ends write nothing. -/
theorem flagsAreSticky : Obligations.FlagsAreSticky := by
  intro i s t next
  obtain ⟨t', next', ends⟩ := exec_runsAs i s
  obtain rfl : t' = t := by cases next'.symm.trans next; rfl
  constructor
  case left =>
    intro rs1 v self dest
    cases ends with
    | result _ _ self' flags =>
      obtain rfl := Option.some.inj (self'.symm.trans self)
      obtain ⟨new, -, gets⟩ := flags v dest
      exact .inl (by rw [gets, and_or_self])
    | noResult _ _ checked none kept => exact .inr ⟨.inr ⟨checked, none⟩, kept⟩
    | own _ _ no_self => cases no_self.symm.trans self
    | @fault c _ entry => exact entry ▸ .inr ⟨.inl ⟨c, faultEntry_takeFault c s⟩, bigsKept_refl s []⟩
  case right =>
    rintro rd m rfl
    cases next
    rw [completed_bigFlags, setFlags_bigFlags, if_pos rfl, and_or_self]

/-- Settles O48: a flag that is new to the register and to RS1 is one of those the end adds, which are listed. -/
theorem flagsAreAddedOnlyAsListed : Obligations.FlagsAreAddedOnlyAsListed := by
  intro i s t next v j hj set unset self_unset
  obtain ⟨t', next', ends⟩ := exec_runsAs i s
  obtain rfl : t' = t := by cases next'.symm.trans next; rfl
  have changed : t'.bigFlags v ≠ s.bigFlags v := fun same => by simp [← same, set] at unset
  have dest : v ∈ i.vDests := by
    by_contra not_dest
    obtain ⟨u, next_u, kept, -⟩ := everyCommandKeepsWhatItDoesNotName i s
    cases next_u.symm.trans next
    exact changed (kept v not_dest).2
  cases ends with
  | @result rs1 _ _ self flags =>
    obtain ⟨new, listed, gets⟩ := flags v dest
    rw [gets, BitVec.getLsbD_or, self_unset rs1 self, Bool.false_or] at set
    exact listed j hj set
  | noResult _ _ _ _ kept => exact absurd (kept v List.not_mem_nil).2 changed
  | own _ _ _ flags => exact flags v dest j hj (by rw [BitVec.getLsbD_and, BitVec.getLsbD_not, set, unset]; simp [hj])
  | fault _ entry => exact absurd (by rw [entry, takeFault_bigFlags]) changed

end Sys2Proof.Proofs
end

section
/-! Proofs of the statements about the reference algorithms (41_addsub.md, 42_multiply.md, 43_divide.md, section 1 of
each): what every loop keeps from word to word or from bit to bit. -/

namespace Sys2Proof.Proofs

open Sys2Proof.Machine Sys2Proof.Laws Sys2Proof.Safety Sys2Proof.Claims

/-! ### The carry and borrow chains (R120) -/

/-- A word and a value of `n` words above it are a value of `n + 1` words. -/
theorem word_add_mul_lt {b n d x : Nat} (hd : d < 2 ^ b) (hx : x < 2 ^ (b * n)) :
    d + 2 ^ b * x < 2 ^ (b * (n + 1)) :=
  calc d + 2 ^ b * x
    _ < 2 ^ b + 2 ^ b * x := Nat.add_lt_add_right hd _
    _ = 2 ^ b * (x + 1) := by ring
    _ ≤ 2 ^ b * 2 ^ (b * n) := Nat.mul_le_mul_left _ hx
    _ = 2 ^ (b * (n + 1)) := by rw [← pow_add]; congr 1; ring

/-- Above its lowest word, a value of `n + 1` words is one of `n` words. -/
theorem div_word_lt {b n a : Nat} (ha : a < 2 ^ (b * (n + 1))) : a / 2 ^ b < 2 ^ (b * n) := by
  apply Nat.div_lt_of_lt_mul
  rwa [← pow_add, Nat.add_comm, ← Nat.mul_succ]

/-- A sum below `2m` is its value modulo `m` and its carry. -/
theorem addCarry_unique {m a r x : Nat} {c out : Bool} (hx : x < m)
    (sum : a + r + c.toNat = x + m * out.toNat) : addCarry m a r c = (x, out) := by
  rw [addCarry, sum]
  cases out
  case false => simp [Nat.mod_eq_of_lt hx, hx]
  case true => simp [Nat.mod_eq_of_lt hx]

/-- A difference is its value modulo `m` and its borrow. -/
theorem subBorrow_unique {m a r x : Nat} {c out : Bool} (ha : a < m) (hr : r < m) (hx : x < m)
    (difference : a + m * out.toNat = x + (r + c.toNat)) : subBorrow m a r c = (x, out) := by
  cases out
  case false =>
    rw [Bool.toNat_false, Nat.mul_zero, Nat.add_zero] at difference
    rw [subBorrow_exact ha (by omega), Prod.mk.injEq]
    exact ⟨by omega, rfl⟩
  case true =>
    rw [Bool.toNat_true, Nat.mul_one] at difference
    rw [subBorrow_borrow hr (by omega), Prod.mk.injEq]
    exact ⟨by omega, rfl⟩

/-- One word of the carry chain: the sum of two words and a carry is a word and a carry. -/
theorem word_sum {b a r : Nat} (c : Bool) (ha : a < 2 ^ b) (hr : r < 2 ^ b) :
    a + r + c.toNat = (a + r + c.toNat) % 2 ^ b + 2 ^ b * (decide (2 ^ b ≤ a + r + c.toNat)).toNat := by
  have hc := c.toNat_le
  generalize 2 ^ b = m at *
  by_cases carry : m ≤ a + r + c.toNat
  case pos => rw [Nat.mod_eq_sub_mod carry, Nat.mod_eq_of_lt (by omega)]; simp [carry]
  case neg => rw [Nat.mod_eq_of_lt (by omega)]; simp [carry]

/-- One word of the borrow chain: the difference of two words and a borrow is a word and a borrow. -/
theorem word_difference {b a r : Nat} (c : Bool) (ha : a < 2 ^ b) (hr : r < 2 ^ b) :
    a + 2 ^ b * (decide (a < r + c.toNat)).toNat = (a + 2 ^ b - (r + c.toNat)) % 2 ^ b + (r + c.toNat) := by
  have hc := c.toNat_le
  generalize 2 ^ b = m at *
  by_cases borrow : a < r + c.toNat
  case pos => rw [Nat.mod_eq_of_lt (by omega)]; simp [borrow]; omega
  case neg => rw [Nat.mod_eq_sub_mod (by omega), Nat.mod_eq_of_lt (by omega)]; simp [borrow]; omega

/-- The carry chain keeps the sum, from the words still to come to the words done. -/
theorem addChain_spec {b n a r : Nat} (c : Bool) (ha : a < 2 ^ (b * n)) (hr : r < 2 ^ (b * n)) :
    (addChain b n a r c).1 < 2 ^ (b * n) ∧
      a + r + c.toNat = (addChain b n a r c).1 + 2 ^ (b * n) * (addChain b n a r c).2.toNat := by
  induction n generalizing a r c with
  | zero =>
    obtain rfl : a = 0 := by simpa using ha
    obtain rfl : r = 0 := by simpa using hr
    simp [addChain]
  | succ n ih =>
    have word_pos := Nat.two_pow_pos b
    have word := word_sum c (Nat.mod_lt a word_pos) (Nat.mod_lt r word_pos)
    obtain ⟨bound, rest⟩ := ih (decide (2 ^ b ≤ a % 2 ^ b + r % 2 ^ b + c.toNat)) (div_word_lt ha) (div_word_lt hr)
    refine ⟨word_add_mul_lt (Nat.mod_lt _ word_pos) bound, ?_⟩
    have a_words := Nat.mod_add_div a (2 ^ b)
    have r_words := Nat.mod_add_div r (2 ^ b)
    rw [addChain, show b * (n + 1) = b + b * n by ring, pow_add]
    linear_combination word + 2 ^ b * rest - a_words - r_words

/-- The borrow chain keeps the difference. -/
theorem subChain_spec {b n a r : Nat} (c : Bool) (ha : a < 2 ^ (b * n)) (hr : r < 2 ^ (b * n)) :
    (subChain b n a r c).1 < 2 ^ (b * n) ∧
      a + 2 ^ (b * n) * (subChain b n a r c).2.toNat = (subChain b n a r c).1 + (r + c.toNat) := by
  induction n generalizing a r c with
  | zero =>
    obtain rfl : a = 0 := by simpa using ha
    obtain rfl : r = 0 := by simpa using hr
    simp [subChain]
  | succ n ih =>
    have word_pos := Nat.two_pow_pos b
    have word := word_difference c (Nat.mod_lt a word_pos) (Nat.mod_lt r word_pos)
    obtain ⟨bound, rest⟩ := ih (decide (a % 2 ^ b < r % 2 ^ b + c.toNat)) (div_word_lt ha) (div_word_lt hr)
    refine ⟨word_add_mul_lt (Nat.mod_lt _ word_pos) bound, ?_⟩
    have a_words := Nat.mod_add_div a (2 ^ b)
    have r_words := Nat.mod_add_div r (2 ^ b)
    rw [subChain, show b * (n + 1) = b + b * n by ring, pow_add]
    linear_combination word + 2 ^ b * rest - a_words + r_words

/-- Settles O55: what the chains keep fixes the whole-value sum and difference. -/
theorem carryChainsComputeSumAndDifference : Obligations.CarryChainsComputeSumAndDifference := by
  intro b n a r c ha hr
  obtain ⟨sum_lt, sum⟩ := addChain_spec c ha hr
  obtain ⟨difference_lt, difference⟩ := subChain_spec c ha hr
  exact ⟨(addCarry_unique sum_lt sum).symm, (subBorrow_unique ha hr difference_lt difference).symm⟩

/-! ### The two multipliers (R141, R142) -/

/-- A row is the product of `n` words and one word, with the carry in added. -/
theorem mulRow_eq {b n a : Nat} (w carry : Nat) (ha : a < 2 ^ (b * n)) : mulRow b n a w carry = a * w + carry := by
  induction n generalizing a carry with
  | zero =>
    obtain rfl : a = 0 := by simpa using ha
    simp [mulRow]
  | succ n ih =>
    have a_words := Nat.mod_add_div a (2 ^ b)
    have product := Nat.mod_add_div (a % 2 ^ b * w + carry) (2 ^ b)
    rw [mulRow, ih _ (div_word_lt ha)]
    linear_combination product + w * a_words

theorem schoolbook_eq {b n a k r : Nat} (ha : a < 2 ^ (b * n)) (hr : r < 2 ^ (b * k)) :
    schoolbook b n a k r = a * r := by
  induction k generalizing r with
  | zero =>
    obtain rfl : r = 0 := by simpa using hr
    simp [schoolbook]
  | succ k ih =>
    have r_words := Nat.mod_add_div r (2 ^ b)
    rw [schoolbook, mulRow_eq _ _ ha, ih (div_word_lt hr)]
    linear_combination a * r_words

/-- From reduced values, wrapping double-and-add is the reduction loop of R188 with `M` for the modulus. -/
theorem doubleAndAdd_eq_modular {m t acc adder r : Nat} (hacc : acc < m) (hadder : adder < m) :
    doubleAndAdd m t acc adder r = modularDoubleAndAdd m t acc adder r := by
  induction t generalizing acc adder r with
  | zero => rfl
  | succ t ih =>
    have m_pos : 0 < m := Nat.zero_lt_of_lt hacc
    have next_acc : (if r % 2 = 1 then (acc + adder) % m else acc) < m := by
      split
      next => exact Nat.mod_lt _ m_pos
      next => exact hacc
    rw [doubleAndAdd, modularDoubleAndAdd, conditionalSub_eq_mod (x := acc + adder) (by omega),
      conditionalSub_eq_mod (x := 2 * adder) (by omega)]
    exact ih next_acc (Nat.mod_lt _ m_pos)

/-- Settles O56: both algorithms give the product, the second one modulo `M`. -/
theorem bothMultipliersComputeTheProduct : Obligations.BothMultipliersComputeTheProduct := by
  refine ⟨fun b n a k r ha hr => schoolbook_eq ha hr, fun c a r ha hr => ?_⟩
  change multiplierLow c a r = a * r % c.modulus
  rw [multiplierLow]
  split
  case isTrue => rw [schoolbook_eq (b := c.wordBits) ha hr]
  case isFalse =>
    have zero_lt : 0 < c.modulus := Nat.zero_lt_of_lt ha
    rw [doubleAndAdd_eq_modular zero_lt ha, modularDoubleAndAdd_eq zero_lt ha hr, Nat.zero_add]

/-! ### Restoring division (R161) -/

/-- The loop divides what is left: the remainder so far, followed by the bits of `a` below `p`. -/
theorem restoringLoop_eq {a r : Nat} (p q : Nat) {rem : Nat} (hr : 0 < r) (hrem : rem < 2 * r) :
    restoringLoop a r p rem q = (q + (rem * 2 ^ p + a % 2 ^ p) / r, (rem * 2 ^ p + a % 2 ^ p) % r) := by
  induction p generalizing rem q with
  | zero =>
    rw [restoringLoop, pow_zero, Nat.mul_one, Nat.mod_one, Nat.add_zero rem]
    split
    case isTrue fits =>
      rw [Nat.mod_eq_sub_mod fits, Nat.mod_eq_of_lt (by omega), Nat.div_eq_sub_div hr fits, Nat.div_eq_of_lt (by omega)]
    case isFalse less => rw [Nat.mod_eq_of_lt (by omega), Nat.div_eq_of_lt (by omega), Nat.add_zero]
  | succ p ih =>
    have bit_lt := Nat.mod_lt (a / 2 ^ p) Nat.two_pos
    have bits : a % 2 ^ (p + 1) = a % 2 ^ p + 2 ^ p * (a / 2 ^ p % 2) := by rw [pow_succ, Nat.mod_mul]
    rw [restoringLoop]
    split
    case isTrue fits =>
      have left : rem * 2 ^ (p + 1) + a % 2 ^ (p + 1) =
          (2 * (rem - r) + a / 2 ^ p % 2) * 2 ^ p + a % 2 ^ p + r * 2 ^ (p + 1) := by
        obtain ⟨d, rfl⟩ := Nat.exists_eq_add_of_le fits
        rw [bits, Nat.add_sub_cancel_left]
        ring
      rw [ih _ (by omega), left, Nat.add_mul_div_left _ _ hr, Nat.add_mul_mod_self_left]
      congr 1
      ring
    case isFalse less =>
      have left : rem * 2 ^ (p + 1) + a % 2 ^ (p + 1) = (2 * rem + a / 2 ^ p % 2) * 2 ^ p + a % 2 ^ p := by
        rw [bits]
        ring
      rw [ih _ (by omega), left]

/-- The first remainder, the top bits of `a` as far down as `r` is long, is below `2r`. -/
theorem div_two_pow_lt_two_mul {a r : Nat} (hr : 0 < r) (h : r ≤ a) : a / 2 ^ (bitLen a - bitLen r) < 2 * r := by
  have shorter : bitLen r ≤ bitLen a := bitLen_le_of_lt (h.trans_lt (lt_two_pow_bitLen a))
  have r_long : 2 ^ bitLen r ≤ 2 * r := by
    cases len : bitLen r with
    | zero =>
      have := lt_two_pow_bitLen r
      rw [len] at this
      omega
    | succ k => rw [pow_succ']; exact Nat.mul_le_mul_left 2 (two_pow_le_of_bitLen len)
  refine (Nat.div_lt_of_lt_mul ?_).trans_le r_long
  rw [← pow_add, Nat.sub_add_cancel shorter]
  exact lt_two_pow_bitLen a

/-- Settles O57: at the start, what is left to divide is `a`. -/
theorem restoringDivisionComputesQuotientAndRemainder :
    Obligations.RestoringDivisionComputesQuotientAndRemainder := by
  intro a r hr h
  rw [restoringDivide, restoringLoop_eq _ _ hr (div_two_pow_lt_two_mul hr h), Nat.div_add_mod', Nat.zero_add]

/-! ### The laws of R264 and R173 -/

/-- The place a bit comes from, there and back. -/
theorem rotate_place {t i n : Nat} (hi : i < t) : ((i + n) % t + t - n % t) % t = i := by
  have hk : n % t < t := Nat.mod_lt n (by omega)
  rw [show (i + n) % t = (i + n % t) % t by simp]
  generalize n % t = k at *
  rcases Nat.lt_or_ge (i + k) t with within | wraps
  case inl => rw [Nat.mod_eq_of_lt within, show i + k + t - k = i + t by omega, Nat.add_mod_right, Nat.mod_eq_of_lt hi]
  case inr =>
    have wrapped_lt : i + k - t < t := by omega
    rw [Nat.mod_eq_sub_mod wraps, Nat.mod_eq_of_lt wrapped_lt, show i + k - t + t - k = i by omega, Nat.mod_eq_of_lt hi]

theorem rotateRight_rotateLeft {t a : Nat} (n : Nat) (ha : a < 2 ^ t) : rotateRight t (rotateLeft t a n) n = a := by
  have rotated := rotateLeft_lt n ha
  apply Nat.eq_of_testBit_eq
  intro i
  rcases Nat.lt_or_ge i t with hi | above
  case inl =>
    have place_lt : (i + n) % t < t := Nat.mod_lt _ (by omega)
    rw [testBit_rotateRight rotated hi, testBit_rotateLeft ha place_lt, rotate_place hi]
  case inr =>
    have high := Nat.pow_le_pow_right Nat.two_pos above
    rw [Nat.testBit_lt_two_pow ((rotateRight_lt n rotated).trans_le high), Nat.testBit_lt_two_pow (ha.trans_le high)]

/-- Settles O60: the rotates undo each other bit by bit, and DIVFULL writes the Euclidean quotient and remainder. -/
theorem inverseCommandsRestoreTheValue : Obligations.InverseCommandsRestoreTheValue := by
  intro s t u rd rd2 rs1 rs2 k
  constructor
  case left =>
    intro left right
    have rotated : WritesBig (.rotl rd rs1 k) s rd _ (s.bigFlags rs1) s.cond :=
      writesBig_plain rfl (rotateLeft_lt _ (big_lt s rs1))
    have restored : WritesBig (.rotr rd2 rd k) t rd2 _ (t.bigFlags rd) t.cond :=
      writesBig_plain rfl (rotateRight_lt _ (big_lt t rd))
    obtain ⟨t', next_t, done, value_t, flags_t, -, -, scalars⟩ := rotated
    obtain ⟨u', next_u, -, value_u, flags_u, -⟩ := restored
    cases next_t.symm.trans left
    cases next_u.symm.trans right
    have amount : scalarOperand t k = scalarOperand s k := scalars k List.not_mem_nil
    rw [value_u, flags_u, done.cfg, value_t, flags_t, amount]
    exact ⟨rotateRight_rotateLeft _ (big_lt s rs1), rfl⟩
  case right =>
    intro different nonzero next
    have written := divideFully_writes (i := .divfull rd rd2 rs1 rs2) (s := s) different rfl
    rw [bigOperand, if_neg nonzero] at written
    obtain ⟨q, m, dividend, m_lt, t', next', -, quotient, -, remainder, -⟩ := written
    cases next'.symm.trans next
    exact ⟨by rw [quotient, remainder, dividend], remainder ▸ m_lt⟩

end Sys2Proof.Proofs
end
